-- ==== Sys2Proof/Word.lean ====
section
/-! DEFINITION. The machine's data widths (00_scope.md R7, R13) and nothing else. -/

namespace Sys2Proof

/-- A 32-bit register, address or instruction word (00_scope.md R7, R13). -/
abbrev Word := BitVec 32

/-- One byte of memory (20_memory.md R50). -/
abbrev Byte := BitVec 8

/-- A 64-bit product or accumulator `HI || LO` (41_muldiv.md R140). -/
abbrev DWord := BitVec 64

/-- A 5-bit general register number (00_scope.md R17, 10_state.md R20). -/
abbrev Reg := BitVec 5

end Sys2Proof
end

