-- ==== Sys2Proof/Syntax.lean ====
section
/-! DEFINITION. The instructions: one constructor per row of spec/opcode_table.json, in the table's order.
Operands stand in the order of the assembler form (30_encoding.md R94), destination first. The fields the
decoder ignores (code20 of `syscall`, rt of `clz` and `clo`, 30_encoding.md R85) are no operands. -/

namespace Sys2Proof

/-- An instruction (30_encoding.md R80 to R92). -/
inductive Instr where
  -- 40_arith_logic.md
  | add (rd rs rt : Reg)
  | addu (rd rs rt : Reg)
  | sub (rd rs rt : Reg)
  | subu (rd rs rt : Reg)
  | addi (rt rs : Reg) (imm : BitVec 16)
  | addiu (rt rs : Reg) (imm : BitVec 16)
  | and (rd rs rt : Reg)
  | or (rd rs rt : Reg)
  | xor (rd rs rt : Reg)
  | nor (rd rs rt : Reg)
  | andi (rt rs : Reg) (imm : BitVec 16)
  | ori (rt rs : Reg) (imm : BitVec 16)
  | xori (rt rs : Reg) (imm : BitVec 16)
  | lui (rt : Reg) (imm : BitVec 16)
  | slt (rd rs rt : Reg)
  | sltu (rd rs rt : Reg)
  | slti (rt rs : Reg) (imm : BitVec 16)
  | sltiu (rt rs : Reg) (imm : BitVec 16)
  | sll (rd rt : Reg) (sa : BitVec 5)
  | srl (rd rt : Reg) (sa : BitVec 5)
  | sra (rd rt : Reg) (sa : BitVec 5)
  | sllv (rd rt rs : Reg)
  | srlv (rd rt rs : Reg)
  | srav (rd rt rs : Reg)
  | movz (rd rs rt : Reg)
  | movn (rd rs rt : Reg)
  | clz (rd rs : Reg)
  | clo (rd rs : Reg)
  | nop
  -- 41_muldiv.md
  | mult (rs rt : Reg)
  | multu (rs rt : Reg)
  | div (rs rt : Reg)
  | divu (rs rt : Reg)
  | mfhi (rd : Reg)
  | mflo (rd : Reg)
  | mthi (rs : Reg)
  | mtlo (rs : Reg)
  | mul (rd rs rt : Reg)
  | madd (rs rt : Reg)
  | maddu (rs rt : Reg)
  | msub (rs rt : Reg)
  | msubu (rs rt : Reg)
  -- 42_loadstore.md
  | lb (rt rs : Reg) (imm : BitVec 16)
  | lbu (rt rs : Reg) (imm : BitVec 16)
  | lh (rt rs : Reg) (imm : BitVec 16)
  | lhu (rt rs : Reg) (imm : BitVec 16)
  | lw (rt rs : Reg) (imm : BitVec 16)
  | lwl (rt rs : Reg) (imm : BitVec 16)
  | lwr (rt rs : Reg) (imm : BitVec 16)
  | sb (rt rs : Reg) (imm : BitVec 16)
  | sh (rt rs : Reg) (imm : BitVec 16)
  | sw (rt rs : Reg) (imm : BitVec 16)
  | swl (rt rs : Reg) (imm : BitVec 16)
  | swr (rt rs : Reg) (imm : BitVec 16)
  | ll (rt rs : Reg) (imm : BitVec 16)
  | sc (rt rs : Reg) (imm : BitVec 16)
  -- 43_control.md
  | beq (rs rt : Reg) (imm : BitVec 16)
  | bne (rs rt : Reg) (imm : BitVec 16)
  | blez (rs : Reg) (imm : BitVec 16)
  | bgtz (rs : Reg) (imm : BitVec 16)
  | bltz (rs : Reg) (imm : BitVec 16)
  | bgez (rs : Reg) (imm : BitVec 16)
  | bltzal (rs : Reg) (imm : BitVec 16)
  | bgezal (rs : Reg) (imm : BitVec 16)
  | j (index : BitVec 26)
  | jal (index : BitVec 26)
  | jr (rs : Reg)
  | jalr (rd rs : Reg)
  -- 44_system.md
  | syscall
  /-- `break`: the mnemonic is a Lean word, so the constructor is `brk`. -/
  | brk (code : BitVec 20)
  | teq (rs rt : Reg) (code : BitVec 10)
  | tne (rs rt : Reg) (code : BitVec 10)
  | tge (rs rt : Reg) (code : BitVec 10)
  | tgeu (rs rt : Reg) (code : BitVec 10)
  | tlt (rs rt : Reg) (code : BitVec 10)
  | tltu (rs rt : Reg) (code : BitVec 10)
  | teqi (rs : Reg) (imm : BitVec 16)
  | tnei (rs : Reg) (imm : BitVec 16)
  | tgei (rs : Reg) (imm : BitVec 16)
  | tgeiu (rs : Reg) (imm : BitVec 16)
  | tlti (rs : Reg) (imm : BitVec 16)
  | tltiu (rs : Reg) (imm : BitVec 16)
  | eret
  /-- `rd` is the CP0 register number; WellFormed asks that it be 8, 12, 13 or 14 (30_encoding.md R91). -/
  | mfc0 (rt : Reg) (rd : BitVec 5)
  | mtc0 (rt : Reg) (rd : BitVec 5)
deriving DecidableEq, Repr

end Sys2Proof
end

