-- ==== Sys2Proof/WellFormed.lean ====
section
/-! DEFINITION. Which instructions have a word of their own: the two checks that the field widths of Instr do
not make already. -/

namespace Sys2Proof

/-- The Coprocessor 0 register numbers that exist (10_state.md R27). -/
def isCp0Number (n : BitVec 5) : Bool := n == 8#5 || n == 12#5 || n == 13#5 || n == 14#5

/-- An instruction is well-formed when some word decodes to it: a CP0 register named by `mfc0` or `mtc0` exists
(30_encoding.md R91), and `sll` is not the form whose word is `nop`'s (30_encoding.md R84, R98). -/
def Instr.wellFormed : Instr → Bool
  | .sll rd rt sa => !(rd == 0#5 && rt == 0#5 && sa == 0#5)
  | .mfc0 _ rd => isCp0Number rd
  | .mtc0 _ rd => isCp0Number rd
  | _ => true

end Sys2Proof
end

