-- ==== Sys2Proof/Decode.lean ====
section
/-! DEFINITION. The decoder (30_encoding.md R80 to R92), total on any bytes, and the encoder written from the
same tables. -/

namespace Sys2Proof

/-! ### Fields (30_encoding.md R81) -/

/-- `op`, bits 31:26 (R81). -/
def opOf (w : Word) : BitVec 6 := w.extractLsb' 26 6
/-- `rs`, bits 25:21 (R81). -/
def rsOf (w : Word) : Reg := w.extractLsb' 21 5
/-- `rt`, bits 20:16 (R81). -/
def rtOf (w : Word) : Reg := w.extractLsb' 16 5
/-- `rd`, bits 15:11 (R81). -/
def rdOf (w : Word) : Reg := w.extractLsb' 11 5
/-- `sa`, bits 10:6 (R81). -/
def saOf (w : Word) : BitVec 5 := w.extractLsb' 6 5
/-- `funct`, bits 5:0 (R81). -/
def functOf (w : Word) : BitVec 6 := w.extractLsb' 0 6
/-- `imm`, bits 15:0 (R81). -/
def immOf (w : Word) : BitVec 16 := w.extractLsb' 0 16
/-- `instr_index`, bits 25:0 (R81). -/
def indexOf (w : Word) : BitVec 26 := w.extractLsb' 0 26
/-- `code20`, bits 25:6 (R81). -/
def code20Of (w : Word) : BitVec 20 := w.extractLsb' 6 20
/-- `code10`, bits 15:6 (R81). -/
def code10Of (w : Word) : BitVec 10 := w.extractLsb' 6 10

/-! ### Decoding -/

/-- Why bytes are refused. The host's reader and the interpreter see the refusal by name. -/
inductive DecodeError where
  /-- The word matches no row of the opcode table (30_encoding.md R84 to R86); the step raises `InvalidOpcode`. -/
  | invalidOpcode (w : Word)
  /-- Fewer than the four bytes of an instruction word (30_encoding.md R92); no fetch gives this. -/
  | truncated
deriving DecidableEq, Repr

/-- The instruction if its reserved fields are zero (30_encoding.md R85). -/
def accept (reservedZero : Bool) (i : Instr) : Option Instr := if reservedZero then some i else none

/-- The SPECIAL map on `funct` (30_encoding.md R88), with the reserved-zero fields of R85. The zero word is `nop` (R84, R98). -/
def decodeSpecial (w : Word) : Option Instr :=
  match functOf w with
  | 0x00#6 =>
    if rdOf w == 0#5 && rtOf w == 0#5 && saOf w == 0#5 then accept (rsOf w == 0#5) .nop
    else accept (rsOf w == 0#5) (.sll (rdOf w) (rtOf w) (saOf w))
  | 0x02#6 => accept (rsOf w == 0#5) (.srl (rdOf w) (rtOf w) (saOf w))
  | 0x03#6 => accept (rsOf w == 0#5) (.sra (rdOf w) (rtOf w) (saOf w))
  | 0x04#6 => accept (saOf w == 0#5) (.sllv (rdOf w) (rtOf w) (rsOf w))
  | 0x06#6 => accept (saOf w == 0#5) (.srlv (rdOf w) (rtOf w) (rsOf w))
  | 0x07#6 => accept (saOf w == 0#5) (.srav (rdOf w) (rtOf w) (rsOf w))
  | 0x08#6 => accept (rtOf w == 0#5 && rdOf w == 0#5 && saOf w == 0#5) (.jr (rsOf w))
  | 0x09#6 => accept (rtOf w == 0#5 && saOf w == 0#5) (.jalr (rdOf w) (rsOf w))
  | 0x0A#6 => accept (saOf w == 0#5) (.movz (rdOf w) (rsOf w) (rtOf w))
  | 0x0B#6 => accept (saOf w == 0#5) (.movn (rdOf w) (rsOf w) (rtOf w))
  | 0x0C#6 => some .syscall
  | 0x0D#6 => some (.brk (code20Of w))
  | 0x10#6 => accept (rsOf w == 0#5 && rtOf w == 0#5 && saOf w == 0#5) (.mfhi (rdOf w))
  | 0x11#6 => accept (rtOf w == 0#5 && rdOf w == 0#5 && saOf w == 0#5) (.mthi (rsOf w))
  | 0x12#6 => accept (rsOf w == 0#5 && rtOf w == 0#5 && saOf w == 0#5) (.mflo (rdOf w))
  | 0x13#6 => accept (rtOf w == 0#5 && rdOf w == 0#5 && saOf w == 0#5) (.mtlo (rsOf w))
  | 0x18#6 => accept (rdOf w == 0#5 && saOf w == 0#5) (.mult (rsOf w) (rtOf w))
  | 0x19#6 => accept (rdOf w == 0#5 && saOf w == 0#5) (.multu (rsOf w) (rtOf w))
  | 0x1A#6 => accept (rdOf w == 0#5 && saOf w == 0#5) (.div (rsOf w) (rtOf w))
  | 0x1B#6 => accept (rdOf w == 0#5 && saOf w == 0#5) (.divu (rsOf w) (rtOf w))
  | 0x20#6 => accept (saOf w == 0#5) (.add (rdOf w) (rsOf w) (rtOf w))
  | 0x21#6 => accept (saOf w == 0#5) (.addu (rdOf w) (rsOf w) (rtOf w))
  | 0x22#6 => accept (saOf w == 0#5) (.sub (rdOf w) (rsOf w) (rtOf w))
  | 0x23#6 => accept (saOf w == 0#5) (.subu (rdOf w) (rsOf w) (rtOf w))
  | 0x24#6 => accept (saOf w == 0#5) (.and (rdOf w) (rsOf w) (rtOf w))
  | 0x25#6 => accept (saOf w == 0#5) (.or (rdOf w) (rsOf w) (rtOf w))
  | 0x26#6 => accept (saOf w == 0#5) (.xor (rdOf w) (rsOf w) (rtOf w))
  | 0x27#6 => accept (saOf w == 0#5) (.nor (rdOf w) (rsOf w) (rtOf w))
  | 0x2A#6 => accept (saOf w == 0#5) (.slt (rdOf w) (rsOf w) (rtOf w))
  | 0x2B#6 => accept (saOf w == 0#5) (.sltu (rdOf w) (rsOf w) (rtOf w))
  | 0x30#6 => some (.tge (rsOf w) (rtOf w) (code10Of w))
  | 0x31#6 => some (.tgeu (rsOf w) (rtOf w) (code10Of w))
  | 0x32#6 => some (.tlt (rsOf w) (rtOf w) (code10Of w))
  | 0x33#6 => some (.tltu (rsOf w) (rtOf w) (code10Of w))
  | 0x34#6 => some (.teq (rsOf w) (rtOf w) (code10Of w))
  | 0x36#6 => some (.tne (rsOf w) (rtOf w) (code10Of w))
  | _ => none

/-- The REGIMM map on `rt` (30_encoding.md R89). -/
def decodeRegimm (w : Word) : Option Instr :=
  match rtOf w with
  | 0x00#5 => some (.bltz (rsOf w) (immOf w))
  | 0x01#5 => some (.bgez (rsOf w) (immOf w))
  | 0x08#5 => some (.tgei (rsOf w) (immOf w))
  | 0x09#5 => some (.tgeiu (rsOf w) (immOf w))
  | 0x0A#5 => some (.tlti (rsOf w) (immOf w))
  | 0x0B#5 => some (.tltiu (rsOf w) (immOf w))
  | 0x0C#5 => some (.teqi (rsOf w) (immOf w))
  | 0x0E#5 => some (.tnei (rsOf w) (immOf w))
  | 0x10#5 => some (.bltzal (rsOf w) (immOf w))
  | 0x11#5 => some (.bgezal (rsOf w) (immOf w))
  | _ => none

/-- The SPECIAL2 map on `funct` (30_encoding.md R90). `rt` of `clz` and `clo` is ignored (R85). -/
def decodeSpecial2 (w : Word) : Option Instr :=
  match functOf w with
  | 0x00#6 => accept (rdOf w == 0#5 && saOf w == 0#5) (.madd (rsOf w) (rtOf w))
  | 0x01#6 => accept (rdOf w == 0#5 && saOf w == 0#5) (.maddu (rsOf w) (rtOf w))
  | 0x02#6 => accept (saOf w == 0#5) (.mul (rdOf w) (rsOf w) (rtOf w))
  | 0x04#6 => accept (rdOf w == 0#5 && saOf w == 0#5) (.msub (rsOf w) (rtOf w))
  | 0x05#6 => accept (rdOf w == 0#5 && saOf w == 0#5) (.msubu (rsOf w) (rtOf w))
  | 0x20#6 => accept (saOf w == 0#5) (.clz (rdOf w) (rsOf w))
  | 0x21#6 => accept (saOf w == 0#5) (.clo (rdOf w) (rsOf w))
  | _ => none

/-- The COP0 map on `rs` (30_encoding.md R91): bits 10:0 of `mfc0` and `mtc0` are zero and their register exists;
`eret` is the single word with bits 24:6 zero and `funct` 0x18. -/
def decodeCop0 (w : Word) : Option Instr :=
  match rsOf w with
  | 0x00#5 => accept (saOf w == 0#5 && functOf w == 0#6 && isCp0Number (rdOf w)) (.mfc0 (rtOf w) (rdOf w))
  | 0x04#5 => accept (saOf w == 0#5 && functOf w == 0#6 && isCp0Number (rdOf w)) (.mtc0 (rtOf w) (rdOf w))
  | 0x10#5 => accept (rtOf w == 0#5 && rdOf w == 0#5 && saOf w == 0#5 && functOf w == 0x18#6) .eret
  | _ => none

/-- The primary opcode map (30_encoding.md R87); every value not listed is unassigned or excluded (R86). -/
def decodeWord (w : Word) : Option Instr :=
  match opOf w with
  | 0x00#6 => decodeSpecial w
  | 0x01#6 => decodeRegimm w
  | 0x02#6 => some (.j (indexOf w))
  | 0x03#6 => some (.jal (indexOf w))
  | 0x04#6 => some (.beq (rsOf w) (rtOf w) (immOf w))
  | 0x05#6 => some (.bne (rsOf w) (rtOf w) (immOf w))
  | 0x06#6 => accept (rtOf w == 0#5) (.blez (rsOf w) (immOf w))
  | 0x07#6 => accept (rtOf w == 0#5) (.bgtz (rsOf w) (immOf w))
  | 0x08#6 => some (.addi (rtOf w) (rsOf w) (immOf w))
  | 0x09#6 => some (.addiu (rtOf w) (rsOf w) (immOf w))
  | 0x0A#6 => some (.slti (rtOf w) (rsOf w) (immOf w))
  | 0x0B#6 => some (.sltiu (rtOf w) (rsOf w) (immOf w))
  | 0x0C#6 => some (.andi (rtOf w) (rsOf w) (immOf w))
  | 0x0D#6 => some (.ori (rtOf w) (rsOf w) (immOf w))
  | 0x0E#6 => some (.xori (rtOf w) (rsOf w) (immOf w))
  | 0x0F#6 => accept (rsOf w == 0#5) (.lui (rtOf w) (immOf w))
  | 0x10#6 => decodeCop0 w
  | 0x1C#6 => decodeSpecial2 w
  | 0x20#6 => some (.lb (rtOf w) (rsOf w) (immOf w))
  | 0x21#6 => some (.lh (rtOf w) (rsOf w) (immOf w))
  | 0x22#6 => some (.lwl (rtOf w) (rsOf w) (immOf w))
  | 0x23#6 => some (.lw (rtOf w) (rsOf w) (immOf w))
  | 0x24#6 => some (.lbu (rtOf w) (rsOf w) (immOf w))
  | 0x25#6 => some (.lhu (rtOf w) (rsOf w) (immOf w))
  | 0x26#6 => some (.lwr (rtOf w) (rsOf w) (immOf w))
  | 0x28#6 => some (.sb (rtOf w) (rsOf w) (immOf w))
  | 0x29#6 => some (.sh (rtOf w) (rsOf w) (immOf w))
  | 0x2A#6 => some (.swl (rtOf w) (rsOf w) (immOf w))
  | 0x2B#6 => some (.sw (rtOf w) (rsOf w) (immOf w))
  | 0x2E#6 => some (.swr (rtOf w) (rsOf w) (immOf w))
  | 0x30#6 => some (.ll (rtOf w) (rsOf w) (immOf w))
  | 0x38#6 => some (.sc (rtOf w) (rsOf w) (immOf w))
  | _ => none

/-- Decode one instruction word (30_encoding.md R84). -/
def decode (w : Word) : Except DecodeError Instr :=
  match decodeWord w with
  | some i => .ok i
  | none => .error (.invalidOpcode w)

/-! ### Byte order of a word (20_memory.md R54) -/

/-- The 32-bit little-endian value of four bytes, the first at the lowest address (20_memory.md R54). -/
def wordOfBytes (b0 b1 b2 b3 : Byte) : Word := b3 ++ b2 ++ b1 ++ b0

/-- Byte `k` of a word, bits `8k+7:8k` (20_memory.md R54). -/
def byteOf (w : Word) (k : Nat) : Byte := w.extractLsb' (8 * k) 8

/-- The bytes of a word as memory holds them, lowest address first (20_memory.md R54, 30_encoding.md R80). -/
def bytesOfWord (w : Word) : List Byte := [byteOf w 0, byteOf w 1, byteOf w 2, byteOf w 3]

/-- Decode the first instruction of a byte sequence and give the bytes after it (30_encoding.md R80, R92). -/
def decodeBytes : List Byte → Except DecodeError (Instr × List Byte)
  | b0 :: b1 :: b2 :: b3 :: rest =>
    match decode (wordOfBytes b0 b1 b2 b3) with
    | .ok i => .ok (i, rest)
    | .error e => .error e
  | _ => .error .truncated

/-- The instruction the decoder reads from the word `w` of `nbits` table bits, laid out little-endian. -/
def decodeTableWord (nbits w : Nat) : Option Instr :=
  match decodeBytes (bytesOfWord (BitVec.ofNat 32 (w % 2 ^ nbits))) with
  | .ok (i, _) => some i
  | .error _ => none

/-! ### Encoding (30_encoding.md R82) -/

/-- `op rs rt rd sa funct` (30_encoding.md R82, formats R, SPECIAL2 and COP0). -/
def rType (op : BitVec 6) (rs rt rd : Reg) (sa : BitVec 5) (funct : BitVec 6) : Word :=
  op ++ rs ++ rt ++ rd ++ sa ++ funct

/-- `op rs rt imm` (30_encoding.md R82, formats I and REGIMM). -/
def iType (op : BitVec 6) (rs rt : Reg) (imm : BitVec 16) : Word := op ++ rs ++ rt ++ imm

/-- `op instr_index` (30_encoding.md R82, format J). -/
def jType (op : BitVec 6) (index : BitVec 26) : Word := op ++ index

/-- `op rs rt code10 funct` (30_encoding.md R81, R82, the register traps). -/
def trapType (rs rt : Reg) (code : BitVec 10) (funct : BitVec 6) : Word := 0#6 ++ rs ++ rt ++ code ++ funct

/-- `op code20 funct` (30_encoding.md R81, R82, `syscall` and `break`). -/
def codeType (code : BitVec 20) (funct : BitVec 6) : Word := 0#6 ++ code ++ funct

/-- The word of an instruction (30_encoding.md R81 to R91). Ignored fields: `syscall`'s code is written 0 (log 10) and
rt of `clz` and `clo` is written as rd (R85). -/
def encode : Instr → Word
  | .add rd rs rt => rType 0x00#6 rs rt rd 0#5 0x20#6
  | .addu rd rs rt => rType 0x00#6 rs rt rd 0#5 0x21#6
  | .sub rd rs rt => rType 0x00#6 rs rt rd 0#5 0x22#6
  | .subu rd rs rt => rType 0x00#6 rs rt rd 0#5 0x23#6
  | .addi rt rs imm => iType 0x08#6 rs rt imm
  | .addiu rt rs imm => iType 0x09#6 rs rt imm
  | .and rd rs rt => rType 0x00#6 rs rt rd 0#5 0x24#6
  | .or rd rs rt => rType 0x00#6 rs rt rd 0#5 0x25#6
  | .xor rd rs rt => rType 0x00#6 rs rt rd 0#5 0x26#6
  | .nor rd rs rt => rType 0x00#6 rs rt rd 0#5 0x27#6
  | .andi rt rs imm => iType 0x0C#6 rs rt imm
  | .ori rt rs imm => iType 0x0D#6 rs rt imm
  | .xori rt rs imm => iType 0x0E#6 rs rt imm
  | .lui rt imm => iType 0x0F#6 0#5 rt imm
  | .slt rd rs rt => rType 0x00#6 rs rt rd 0#5 0x2A#6
  | .sltu rd rs rt => rType 0x00#6 rs rt rd 0#5 0x2B#6
  | .slti rt rs imm => iType 0x0A#6 rs rt imm
  | .sltiu rt rs imm => iType 0x0B#6 rs rt imm
  | .sll rd rt sa => rType 0x00#6 0#5 rt rd sa 0x00#6
  | .srl rd rt sa => rType 0x00#6 0#5 rt rd sa 0x02#6
  | .sra rd rt sa => rType 0x00#6 0#5 rt rd sa 0x03#6
  | .sllv rd rt rs => rType 0x00#6 rs rt rd 0#5 0x04#6
  | .srlv rd rt rs => rType 0x00#6 rs rt rd 0#5 0x06#6
  | .srav rd rt rs => rType 0x00#6 rs rt rd 0#5 0x07#6
  | .movz rd rs rt => rType 0x00#6 rs rt rd 0#5 0x0A#6
  | .movn rd rs rt => rType 0x00#6 rs rt rd 0#5 0x0B#6
  | .clz rd rs => rType 0x1C#6 rs rd rd 0#5 0x20#6
  | .clo rd rs => rType 0x1C#6 rs rd rd 0#5 0x21#6
  | .nop => 0#32
  | .mult rs rt => rType 0x00#6 rs rt 0#5 0#5 0x18#6
  | .multu rs rt => rType 0x00#6 rs rt 0#5 0#5 0x19#6
  | .div rs rt => rType 0x00#6 rs rt 0#5 0#5 0x1A#6
  | .divu rs rt => rType 0x00#6 rs rt 0#5 0#5 0x1B#6
  | .mfhi rd => rType 0x00#6 0#5 0#5 rd 0#5 0x10#6
  | .mflo rd => rType 0x00#6 0#5 0#5 rd 0#5 0x12#6
  | .mthi rs => rType 0x00#6 rs 0#5 0#5 0#5 0x11#6
  | .mtlo rs => rType 0x00#6 rs 0#5 0#5 0#5 0x13#6
  | .mul rd rs rt => rType 0x1C#6 rs rt rd 0#5 0x02#6
  | .madd rs rt => rType 0x1C#6 rs rt 0#5 0#5 0x00#6
  | .maddu rs rt => rType 0x1C#6 rs rt 0#5 0#5 0x01#6
  | .msub rs rt => rType 0x1C#6 rs rt 0#5 0#5 0x04#6
  | .msubu rs rt => rType 0x1C#6 rs rt 0#5 0#5 0x05#6
  | .lb rt rs imm => iType 0x20#6 rs rt imm
  | .lbu rt rs imm => iType 0x24#6 rs rt imm
  | .lh rt rs imm => iType 0x21#6 rs rt imm
  | .lhu rt rs imm => iType 0x25#6 rs rt imm
  | .lw rt rs imm => iType 0x23#6 rs rt imm
  | .lwl rt rs imm => iType 0x22#6 rs rt imm
  | .lwr rt rs imm => iType 0x26#6 rs rt imm
  | .sb rt rs imm => iType 0x28#6 rs rt imm
  | .sh rt rs imm => iType 0x29#6 rs rt imm
  | .sw rt rs imm => iType 0x2B#6 rs rt imm
  | .swl rt rs imm => iType 0x2A#6 rs rt imm
  | .swr rt rs imm => iType 0x2E#6 rs rt imm
  | .ll rt rs imm => iType 0x30#6 rs rt imm
  | .sc rt rs imm => iType 0x38#6 rs rt imm
  | .beq rs rt imm => iType 0x04#6 rs rt imm
  | .bne rs rt imm => iType 0x05#6 rs rt imm
  | .blez rs imm => iType 0x06#6 rs 0#5 imm
  | .bgtz rs imm => iType 0x07#6 rs 0#5 imm
  | .bltz rs imm => iType 0x01#6 rs 0x00#5 imm
  | .bgez rs imm => iType 0x01#6 rs 0x01#5 imm
  | .bltzal rs imm => iType 0x01#6 rs 0x10#5 imm
  | .bgezal rs imm => iType 0x01#6 rs 0x11#5 imm
  | .j index => jType 0x02#6 index
  | .jal index => jType 0x03#6 index
  | .jr rs => rType 0x00#6 rs 0#5 0#5 0#5 0x08#6
  | .jalr rd rs => rType 0x00#6 rs 0#5 rd 0#5 0x09#6
  | .syscall => codeType 0#20 0x0C#6
  | .brk code => codeType code 0x0D#6
  | .teq rs rt code => trapType rs rt code 0x34#6
  | .tne rs rt code => trapType rs rt code 0x36#6
  | .tge rs rt code => trapType rs rt code 0x30#6
  | .tgeu rs rt code => trapType rs rt code 0x31#6
  | .tlt rs rt code => trapType rs rt code 0x32#6
  | .tltu rs rt code => trapType rs rt code 0x33#6
  | .teqi rs imm => iType 0x01#6 rs 0x0C#5 imm
  | .tnei rs imm => iType 0x01#6 rs 0x0E#5 imm
  | .tgei rs imm => iType 0x01#6 rs 0x08#5 imm
  | .tgeiu rs imm => iType 0x01#6 rs 0x09#5 imm
  | .tlti rs imm => iType 0x01#6 rs 0x0A#5 imm
  | .tltiu rs imm => iType 0x01#6 rs 0x0B#5 imm
  | .eret => rType 0x10#6 0x10#5 0#5 0#5 0#5 0x18#6
  | .mfc0 rt rd => rType 0x10#6 0x00#5 rt rd 0#5 0#6
  | .mtc0 rt rd => rType 0x10#6 0x04#5 rt rd 0#5 0#6

/-! ### The opcode table (30_encoding.md R84; spec/opcode_table.json) -/

/-- The `mask` of an instruction's row in spec/opcode_table.json. -/
def Instr.mask : Instr → Word
  | .add _ _ _ => 0xFC0007FF#32
  | .addu _ _ _ => 0xFC0007FF#32
  | .sub _ _ _ => 0xFC0007FF#32
  | .subu _ _ _ => 0xFC0007FF#32
  | .addi _ _ _ => 0xFC000000#32
  | .addiu _ _ _ => 0xFC000000#32
  | .and _ _ _ => 0xFC0007FF#32
  | .or _ _ _ => 0xFC0007FF#32
  | .xor _ _ _ => 0xFC0007FF#32
  | .nor _ _ _ => 0xFC0007FF#32
  | .andi _ _ _ => 0xFC000000#32
  | .ori _ _ _ => 0xFC000000#32
  | .xori _ _ _ => 0xFC000000#32
  | .lui _ _ => 0xFFE00000#32
  | .slt _ _ _ => 0xFC0007FF#32
  | .sltu _ _ _ => 0xFC0007FF#32
  | .slti _ _ _ => 0xFC000000#32
  | .sltiu _ _ _ => 0xFC000000#32
  | .sll _ _ _ => 0xFFE0003F#32
  | .srl _ _ _ => 0xFFE0003F#32
  | .sra _ _ _ => 0xFFE0003F#32
  | .sllv _ _ _ => 0xFC0007FF#32
  | .srlv _ _ _ => 0xFC0007FF#32
  | .srav _ _ _ => 0xFC0007FF#32
  | .movz _ _ _ => 0xFC0007FF#32
  | .movn _ _ _ => 0xFC0007FF#32
  | .clz _ _ => 0xFC0007FF#32
  | .clo _ _ => 0xFC0007FF#32
  | .nop => 0xFFFFFFFF#32
  | .mult _ _ => 0xFC00FFFF#32
  | .multu _ _ => 0xFC00FFFF#32
  | .div _ _ => 0xFC00FFFF#32
  | .divu _ _ => 0xFC00FFFF#32
  | .mfhi _ => 0xFFFF07FF#32
  | .mflo _ => 0xFFFF07FF#32
  | .mthi _ => 0xFC1FFFFF#32
  | .mtlo _ => 0xFC1FFFFF#32
  | .mul _ _ _ => 0xFC0007FF#32
  | .madd _ _ => 0xFC00FFFF#32
  | .maddu _ _ => 0xFC00FFFF#32
  | .msub _ _ => 0xFC00FFFF#32
  | .msubu _ _ => 0xFC00FFFF#32
  | .lb _ _ _ => 0xFC000000#32
  | .lbu _ _ _ => 0xFC000000#32
  | .lh _ _ _ => 0xFC000000#32
  | .lhu _ _ _ => 0xFC000000#32
  | .lw _ _ _ => 0xFC000000#32
  | .lwl _ _ _ => 0xFC000000#32
  | .lwr _ _ _ => 0xFC000000#32
  | .sb _ _ _ => 0xFC000000#32
  | .sh _ _ _ => 0xFC000000#32
  | .sw _ _ _ => 0xFC000000#32
  | .swl _ _ _ => 0xFC000000#32
  | .swr _ _ _ => 0xFC000000#32
  | .ll _ _ _ => 0xFC000000#32
  | .sc _ _ _ => 0xFC000000#32
  | .beq _ _ _ => 0xFC000000#32
  | .bne _ _ _ => 0xFC000000#32
  | .blez _ _ => 0xFC1F0000#32
  | .bgtz _ _ => 0xFC1F0000#32
  | .bltz _ _ => 0xFC1F0000#32
  | .bgez _ _ => 0xFC1F0000#32
  | .bltzal _ _ => 0xFC1F0000#32
  | .bgezal _ _ => 0xFC1F0000#32
  | .j _ => 0xFC000000#32
  | .jal _ => 0xFC000000#32
  | .jr _ => 0xFC1FFFFF#32
  | .jalr _ _ => 0xFC1F07FF#32
  | .syscall => 0xFC00003F#32
  | .brk _ => 0xFC00003F#32
  | .teq _ _ _ => 0xFC00003F#32
  | .tne _ _ _ => 0xFC00003F#32
  | .tge _ _ _ => 0xFC00003F#32
  | .tgeu _ _ _ => 0xFC00003F#32
  | .tlt _ _ _ => 0xFC00003F#32
  | .tltu _ _ _ => 0xFC00003F#32
  | .teqi _ _ => 0xFC1F0000#32
  | .tnei _ _ => 0xFC1F0000#32
  | .tgei _ _ => 0xFC1F0000#32
  | .tgeiu _ _ => 0xFC1F0000#32
  | .tlti _ _ => 0xFC1F0000#32
  | .tltiu _ _ => 0xFC1F0000#32
  | .eret => 0xFFFFFFFF#32
  | .mfc0 _ _ => 0xFFE007FF#32
  | .mtc0 _ _ => 0xFFE007FF#32

/-- The `match` of an instruction's row in spec/opcode_table.json. -/
def Instr.matchBits : Instr → Word
  | .add _ _ _ => 0x00000020#32
  | .addu _ _ _ => 0x00000021#32
  | .sub _ _ _ => 0x00000022#32
  | .subu _ _ _ => 0x00000023#32
  | .addi _ _ _ => 0x20000000#32
  | .addiu _ _ _ => 0x24000000#32
  | .and _ _ _ => 0x00000024#32
  | .or _ _ _ => 0x00000025#32
  | .xor _ _ _ => 0x00000026#32
  | .nor _ _ _ => 0x00000027#32
  | .andi _ _ _ => 0x30000000#32
  | .ori _ _ _ => 0x34000000#32
  | .xori _ _ _ => 0x38000000#32
  | .lui _ _ => 0x3C000000#32
  | .slt _ _ _ => 0x0000002A#32
  | .sltu _ _ _ => 0x0000002B#32
  | .slti _ _ _ => 0x28000000#32
  | .sltiu _ _ _ => 0x2C000000#32
  | .sll _ _ _ => 0x00000000#32
  | .srl _ _ _ => 0x00000002#32
  | .sra _ _ _ => 0x00000003#32
  | .sllv _ _ _ => 0x00000004#32
  | .srlv _ _ _ => 0x00000006#32
  | .srav _ _ _ => 0x00000007#32
  | .movz _ _ _ => 0x0000000A#32
  | .movn _ _ _ => 0x0000000B#32
  | .clz _ _ => 0x70000020#32
  | .clo _ _ => 0x70000021#32
  | .nop => 0x00000000#32
  | .mult _ _ => 0x00000018#32
  | .multu _ _ => 0x00000019#32
  | .div _ _ => 0x0000001A#32
  | .divu _ _ => 0x0000001B#32
  | .mfhi _ => 0x00000010#32
  | .mflo _ => 0x00000012#32
  | .mthi _ => 0x00000011#32
  | .mtlo _ => 0x00000013#32
  | .mul _ _ _ => 0x70000002#32
  | .madd _ _ => 0x70000000#32
  | .maddu _ _ => 0x70000001#32
  | .msub _ _ => 0x70000004#32
  | .msubu _ _ => 0x70000005#32
  | .lb _ _ _ => 0x80000000#32
  | .lbu _ _ _ => 0x90000000#32
  | .lh _ _ _ => 0x84000000#32
  | .lhu _ _ _ => 0x94000000#32
  | .lw _ _ _ => 0x8C000000#32
  | .lwl _ _ _ => 0x88000000#32
  | .lwr _ _ _ => 0x98000000#32
  | .sb _ _ _ => 0xA0000000#32
  | .sh _ _ _ => 0xA4000000#32
  | .sw _ _ _ => 0xAC000000#32
  | .swl _ _ _ => 0xA8000000#32
  | .swr _ _ _ => 0xB8000000#32
  | .ll _ _ _ => 0xC0000000#32
  | .sc _ _ _ => 0xE0000000#32
  | .beq _ _ _ => 0x10000000#32
  | .bne _ _ _ => 0x14000000#32
  | .blez _ _ => 0x18000000#32
  | .bgtz _ _ => 0x1C000000#32
  | .bltz _ _ => 0x04000000#32
  | .bgez _ _ => 0x04010000#32
  | .bltzal _ _ => 0x04100000#32
  | .bgezal _ _ => 0x04110000#32
  | .j _ => 0x08000000#32
  | .jal _ => 0x0C000000#32
  | .jr _ => 0x00000008#32
  | .jalr _ _ => 0x00000009#32
  | .syscall => 0x0000000C#32
  | .brk _ => 0x0000000D#32
  | .teq _ _ _ => 0x00000034#32
  | .tne _ _ _ => 0x00000036#32
  | .tge _ _ _ => 0x00000030#32
  | .tgeu _ _ _ => 0x00000031#32
  | .tlt _ _ _ => 0x00000032#32
  | .tltu _ _ _ => 0x00000033#32
  | .teqi _ _ => 0x040C0000#32
  | .tnei _ _ => 0x040E0000#32
  | .tgei _ _ => 0x04080000#32
  | .tgeiu _ _ => 0x04090000#32
  | .tlti _ _ => 0x040A0000#32
  | .tltiu _ _ => 0x040B0000#32
  | .eret => 0x42000018#32
  | .mfc0 _ _ => 0x40000000#32
  | .mtc0 _ _ => 0x40800000#32

/-- The `extra` condition of an instruction's row, read on a word (30_encoding.md R85, R91). -/
def Instr.extra (w : Word) : Instr → Bool
  | .mfc0 _ _ => isCp0Number (rdOf w)
  | .mtc0 _ _ => isCp0Number (rdOf w)
  | _ => true

/-! ### One word per constructor, written from the encodings the rules give -/

/-- V-A1. -/
theorem decode_word_add : decode 0x01095020#32 = .ok (.add 10 8 9) ∧ encode (.add 10 8 9) = 0x01095020#32 := by decide
/-- V-A2. -/
theorem decode_word_addu : decode 0x01095021#32 = .ok (.addu 10 8 9) ∧ encode (.addu 10 8 9) = 0x01095021#32 := by decide
/-- V-A5. -/
theorem decode_word_sub : decode 0x01095022#32 = .ok (.sub 10 8 9) ∧ encode (.sub 10 8 9) = 0x01095022#32 := by decide
/-- V-A7. -/
theorem decode_word_subu : decode 0x01095023#32 = .ok (.subu 10 8 9) ∧ encode (.subu 10 8 9) = 0x01095023#32 := by decide
/-- V-A8, W1. -/
theorem decode_word_addi : decode 0x210AFFFF#32 = .ok (.addi 10 8 0xFFFF) ∧ encode (.addi 10 8 0xFFFF) = 0x210AFFFF#32 := by decide
/-- V-A9. -/
theorem decode_word_addiu : decode 0x250AFFFF#32 = .ok (.addiu 10 8 0xFFFF) ∧ encode (.addiu 10 8 0xFFFF) = 0x250AFFFF#32 := by decide
/-- V-A12. -/
theorem decode_word_and : decode 0x01095024#32 = .ok (.and 10 8 9) ∧ encode (.and 10 8 9) = 0x01095024#32 := by decide
/-- V-A13. -/
theorem decode_word_or : decode 0x01095025#32 = .ok (.or 10 8 9) ∧ encode (.or 10 8 9) = 0x01095025#32 := by decide
/-- V-A14. -/
theorem decode_word_xor : decode 0x01095026#32 = .ok (.xor 10 8 9) ∧ encode (.xor 10 8 9) = 0x01095026#32 := by decide
/-- V-A15. -/
theorem decode_word_nor : decode 0x01095027#32 = .ok (.nor 10 8 9) ∧ encode (.nor 10 8 9) = 0x01095027#32 := by decide
/-- V-A16. -/
theorem decode_word_andi : decode 0x310AFFFF#32 = .ok (.andi 10 8 0xFFFF) ∧ encode (.andi 10 8 0xFFFF) = 0x310AFFFF#32 := by decide
/-- V-A17. -/
theorem decode_word_ori : decode 0x350A8000#32 = .ok (.ori 10 8 0x8000) ∧ encode (.ori 10 8 0x8000) = 0x350A8000#32 := by decide
/-- V-A18. -/
theorem decode_word_xori : decode 0x390AFFFF#32 = .ok (.xori 10 8 0xFFFF) ∧ encode (.xori 10 8 0xFFFF) = 0x390AFFFF#32 := by decide
/-- V-A19. -/
theorem decode_word_lui : decode 0x3C0A8001#32 = .ok (.lui 10 0x8001) ∧ encode (.lui 10 0x8001) = 0x3C0A8001#32 := by decide
/-- V-A20. -/
theorem decode_word_slt : decode 0x0109502A#32 = .ok (.slt 10 8 9) ∧ encode (.slt 10 8 9) = 0x0109502A#32 := by decide
/-- V-A21. -/
theorem decode_word_sltu : decode 0x0109502B#32 = .ok (.sltu 10 8 9) ∧ encode (.sltu 10 8 9) = 0x0109502B#32 := by decide
/-- V-A22. -/
theorem decode_word_slti : decode 0x290AFFFF#32 = .ok (.slti 10 8 0xFFFF) ∧ encode (.slti 10 8 0xFFFF) = 0x290AFFFF#32 := by decide
/-- V-A24. -/
theorem decode_word_sltiu : decode 0x2D0A8000#32 = .ok (.sltiu 10 8 0x8000) ∧ encode (.sltiu 10 8 0x8000) = 0x2D0A8000#32 := by decide
/-- V-A25. -/
theorem decode_word_sll : decode 0x000857C0#32 = .ok (.sll 10 8 31) ∧ encode (.sll 10 8 31) = 0x000857C0#32 := by decide
/-- V-A26. -/
theorem decode_word_srl : decode 0x00085102#32 = .ok (.srl 10 8 4) ∧ encode (.srl 10 8 4) = 0x00085102#32 := by decide
/-- V-A27. -/
theorem decode_word_sra : decode 0x00085103#32 = .ok (.sra 10 8 4) ∧ encode (.sra 10 8 4) = 0x00085103#32 := by decide
/-- V-A29. -/
theorem decode_word_sllv : decode 0x01285004#32 = .ok (.sllv 10 8 9) ∧ encode (.sllv 10 8 9) = 0x01285004#32 := by decide
/-- V-A30. -/
theorem decode_word_srlv : decode 0x01285006#32 = .ok (.srlv 10 8 9) ∧ encode (.srlv 10 8 9) = 0x01285006#32 := by decide
/-- V-A31. -/
theorem decode_word_srav : decode 0x01285007#32 = .ok (.srav 10 8 9) ∧ encode (.srav 10 8 9) = 0x01285007#32 := by decide
/-- V-A32. -/
theorem decode_word_movz : decode 0x0109500A#32 = .ok (.movz 10 8 9) ∧ encode (.movz 10 8 9) = 0x0109500A#32 := by decide
/-- V-A34. -/
theorem decode_word_movn : decode 0x0109500B#32 = .ok (.movn 10 8 9) ∧ encode (.movn 10 8 9) = 0x0109500B#32 := by decide
/-- V-A35. -/
theorem decode_word_clz : decode 0x710A5020#32 = .ok (.clz 10 8) ∧ encode (.clz 10 8) = 0x710A5020#32 := by decide
/-- V-A37. -/
theorem decode_word_clo : decode 0x710A5021#32 = .ok (.clo 10 8) ∧ encode (.clo 10 8) = 0x710A5021#32 := by decide
/-- V-A39. -/
theorem decode_word_nop : decode 0x00000000#32 = .ok (.nop) ∧ encode (.nop) = 0x00000000#32 := by decide
/-- V-M1. -/
theorem decode_word_mult : decode 0x01090018#32 = .ok (.mult 8 9) ∧ encode (.mult 8 9) = 0x01090018#32 := by decide
/-- V-M2. -/
theorem decode_word_multu : decode 0x01090019#32 = .ok (.multu 8 9) ∧ encode (.multu 8 9) = 0x01090019#32 := by decide
/-- V-M5. -/
theorem decode_word_div : decode 0x0109001A#32 = .ok (.div 8 9) ∧ encode (.div 8 9) = 0x0109001A#32 := by decide
/-- V-M10. -/
theorem decode_word_divu : decode 0x0109001B#32 = .ok (.divu 8 9) ∧ encode (.divu 8 9) = 0x0109001B#32 := by decide
/-- V-M17. -/
theorem decode_word_mfhi : decode 0x00005010#32 = .ok (.mfhi 10) ∧ encode (.mfhi 10) = 0x00005010#32 := by decide
/-- R146. -/
theorem decode_word_mflo : decode 0b00000000000000000101000000010010#32 = .ok (.mflo 10) ∧ encode (.mflo 10) = 0b00000000000000000101000000010010#32 := by decide
/-- R147. -/
theorem decode_word_mthi : decode 0b00000001000000000000000000010001#32 = .ok (.mthi 8) ∧ encode (.mthi 8) = 0b00000001000000000000000000010001#32 := by decide
/-- V-M18. -/
theorem decode_word_mtlo : decode 0x01000013#32 = .ok (.mtlo 8) ∧ encode (.mtlo 8) = 0x01000013#32 := by decide
/-- V-M11. -/
theorem decode_word_mul : decode 0x71095002#32 = .ok (.mul 10 8 9) ∧ encode (.mul 10 8 9) = 0x71095002#32 := by decide
/-- V-M13. -/
theorem decode_word_madd : decode 0x71090000#32 = .ok (.madd 8 9) ∧ encode (.madd 8 9) = 0x71090000#32 := by decide
/-- V-M14. -/
theorem decode_word_maddu : decode 0x71090001#32 = .ok (.maddu 8 9) ∧ encode (.maddu 8 9) = 0x71090001#32 := by decide
/-- V-M15. -/
theorem decode_word_msub : decode 0x71090004#32 = .ok (.msub 8 9) ∧ encode (.msub 8 9) = 0x71090004#32 := by decide
/-- V-M16. -/
theorem decode_word_msubu : decode 0x71090005#32 = .ok (.msubu 8 9) ∧ encode (.msubu 8 9) = 0x71090005#32 := by decide
/-- V-L2. -/
theorem decode_word_lb : decode 0x81090003#32 = .ok (.lb 9 8 3) ∧ encode (.lb 9 8 3) = 0x81090003#32 := by decide
/-- V-L3. -/
theorem decode_word_lbu : decode 0x91090003#32 = .ok (.lbu 9 8 3) ∧ encode (.lbu 9 8 3) = 0x91090003#32 := by decide
/-- V-L4. -/
theorem decode_word_lh : decode 0x85090002#32 = .ok (.lh 9 8 2) ∧ encode (.lh 9 8 2) = 0x85090002#32 := by decide
/-- V-L5. -/
theorem decode_word_lhu : decode 0x95090002#32 = .ok (.lhu 9 8 2) ∧ encode (.lhu 9 8 2) = 0x95090002#32 := by decide
/-- V-L8. -/
theorem decode_word_lw : decode 0x8D09FFFC#32 = .ok (.lw 9 8 0xFFFC) ∧ encode (.lw 9 8 0xFFFC) = 0x8D09FFFC#32 := by decide
/-- V-L17. -/
theorem decode_word_lwl : decode 0x89090002#32 = .ok (.lwl 9 8 2) ∧ encode (.lwl 9 8 2) = 0x89090002#32 := by decide
/-- V-L18. -/
theorem decode_word_lwr : decode 0x99090002#32 = .ok (.lwr 9 8 2) ∧ encode (.lwr 9 8 2) = 0x99090002#32 := by decide
/-- V-L16. -/
theorem decode_word_sb : decode 0xA1090001#32 = .ok (.sb 9 8 1) ∧ encode (.sb 9 8 1) = 0xA1090001#32 := by decide
/-- V-L15. -/
theorem decode_word_sh : decode 0xA5090002#32 = .ok (.sh 9 8 2) ∧ encode (.sh 9 8 2) = 0xA5090002#32 := by decide
/-- V-L11. -/
theorem decode_word_sw : decode 0xAD090000#32 = .ok (.sw 9 8 0) ∧ encode (.sw 9 8 0) = 0xAD090000#32 := by decide
/-- V-L21. -/
theorem decode_word_swl : decode 0xA9090002#32 = .ok (.swl 9 8 2) ∧ encode (.swl 9 8 2) = 0xA9090002#32 := by decide
/-- V-L22. -/
theorem decode_word_swr : decode 0xB9090002#32 = .ok (.swr 9 8 2) ∧ encode (.swr 9 8 2) = 0xB9090002#32 := by decide
/-- V-L24. -/
theorem decode_word_ll : decode 0xC1090000#32 = .ok (.ll 9 8 0) ∧ encode (.ll 9 8 0) = 0xC1090000#32 := by decide
/-- V-L23. -/
theorem decode_word_sc : decode 0xE1090000#32 = .ok (.sc 9 8 0) ∧ encode (.sc 9 8 0) = 0xE1090000#32 := by decide
/-- V-B1. -/
theorem decode_word_beq : decode 0x11090010#32 = .ok (.beq 8 9 16) ∧ encode (.beq 8 9 16) = 0x11090010#32 := by decide
/-- V-B3. -/
theorem decode_word_bne : decode 0x15090010#32 = .ok (.bne 8 9 16) ∧ encode (.bne 8 9 16) = 0x15090010#32 := by decide
/-- V-B5. -/
theorem decode_word_blez : decode 0x1900FFFF#32 = .ok (.blez 8 0xFFFF) ∧ encode (.blez 8 0xFFFF) = 0x1900FFFF#32 := by decide
/-- V-B8. -/
theorem decode_word_bgtz : decode 0x1D00FFFF#32 = .ok (.bgtz 8 0xFFFF) ∧ encode (.bgtz 8 0xFFFF) = 0x1D00FFFF#32 := by decide
/-- V-B11. -/
theorem decode_word_bltz : decode 0x05007FFF#32 = .ok (.bltz 8 0x7FFF) ∧ encode (.bltz 8 0x7FFF) = 0x05007FFF#32 := by decide
/-- V-B13. -/
theorem decode_word_bgez : decode 0x05018000#32 = .ok (.bgez 8 0x8000) ∧ encode (.bgez 8 0x8000) = 0x05018000#32 := by decide
/-- V-B15. -/
theorem decode_word_bltzal : decode 0x05100004#32 = .ok (.bltzal 8 4) ∧ encode (.bltzal 8 4) = 0x05100004#32 := by decide
/-- V-B17. -/
theorem decode_word_bgezal : decode 0x05110004#32 = .ok (.bgezal 8 4) ∧ encode (.bgezal 8 4) = 0x05110004#32 := by decide
/-- V-B23. -/
theorem decode_word_j : decode 0x0BFFFFFF#32 = .ok (.j 0x3FFFFFF) ∧ encode (.j 0x3FFFFFF) = 0x0BFFFFFF#32 := by decide
/-- V-B19. -/
theorem decode_word_jal : decode 0x0C100040#32 = .ok (.jal 0x100040) ∧ encode (.jal 0x100040) = 0x0C100040#32 := by decide
/-- V-B20. -/
theorem decode_word_jr : decode 0x01000008#32 = .ok (.jr 8) ∧ encode (.jr 8) = 0x01000008#32 := by decide
/-- V-B21. -/
theorem decode_word_jalr : decode 0x01004809#32 = .ok (.jalr 9 8) ∧ encode (.jalr 9 8) = 0x01004809#32 := by decide
/-- R210. -/
theorem decode_word_syscall : decode 0x0000000C#32 = .ok (.syscall) ∧ encode (.syscall) = 0x0000000C#32 := by decide
/-- W1. -/
theorem decode_word_brk : decode 0x0000014D#32 = .ok (.brk 5) ∧ encode (.brk 5) = 0x0000014D#32 := by decide
/-- W1. -/
theorem decode_word_teq : decode 0x010900F4#32 = .ok (.teq 8 9 3) ∧ encode (.teq 8 9 3) = 0x010900F4#32 := by decide
/-- R221. -/
theorem decode_word_tne : decode 0x01090036#32 = .ok (.tne 8 9 0) ∧ encode (.tne 8 9 0) = 0x01090036#32 := by decide
/-- R222. -/
theorem decode_word_tge : decode 0x01090030#32 = .ok (.tge 8 9 0) ∧ encode (.tge 8 9 0) = 0x01090030#32 := by decide
/-- R223. -/
theorem decode_word_tgeu : decode 0x01090031#32 = .ok (.tgeu 8 9 0) ∧ encode (.tgeu 8 9 0) = 0x01090031#32 := by decide
/-- R224. -/
theorem decode_word_tlt : decode 0x01090032#32 = .ok (.tlt 8 9 0) ∧ encode (.tlt 8 9 0) = 0x01090032#32 := by decide
/-- R225. -/
theorem decode_word_tltu : decode 0x01090033#32 = .ok (.tltu 8 9 0) ∧ encode (.tltu 8 9 0) = 0x01090033#32 := by decide
/-- R226. -/
theorem decode_word_teqi : decode 0x050C0005#32 = .ok (.teqi 8 5) ∧ encode (.teqi 8 5) = 0x050C0005#32 := by decide
/-- R227. -/
theorem decode_word_tnei : decode 0x050E0005#32 = .ok (.tnei 8 5) ∧ encode (.tnei 8 5) = 0x050E0005#32 := by decide
/-- R228. -/
theorem decode_word_tgei : decode 0x05080005#32 = .ok (.tgei 8 5) ∧ encode (.tgei 8 5) = 0x05080005#32 := by decide
/-- R229. -/
theorem decode_word_tgeiu : decode 0x05090005#32 = .ok (.tgeiu 8 5) ∧ encode (.tgeiu 8 5) = 0x05090005#32 := by decide
/-- R230. -/
theorem decode_word_tlti : decode 0x050A0005#32 = .ok (.tlti 8 5) ∧ encode (.tlti 8 5) = 0x050A0005#32 := by decide
/-- R231. -/
theorem decode_word_tltiu : decode 0x050B0005#32 = .ok (.tltiu 8 5) ∧ encode (.tltiu 8 5) = 0x050B0005#32 := by decide
/-- R232. -/
theorem decode_word_eret : decode 0x42000018#32 = .ok (.eret) ∧ encode (.eret) = 0x42000018#32 := by decide
/-- P3. -/
theorem decode_word_mfc0 : decode 0x401A7000#32 = .ok (.mfc0 26 14) ∧ encode (.mfc0 26 14) = 0x401A7000#32 := by decide
/-- P3, R234. -/
theorem decode_word_mtc0 : decode 0x409A7000#32 = .ok (.mtc0 26 14) ∧ encode (.mtc0 26 14) = 0x409A7000#32 := by decide

end Sys2Proof
end

