-- ==== Sys2Proof/Config.lean ====
section
/-! DEFINITION. What an implementation or the host fixes: the two named parameters of 00_scope.md R7 as
plain data, and the draws of 00_scope.md R16 as free values (constants with no body). -/

namespace Sys2Proof

/-- `FETCH_EMPTY` (00_scope.md R7, 20_memory.md R59): what a fetch of a text word the image never defined does. -/
inductive FetchEmpty where
  /-- The word reads 0x00000000, a `nop`; the default. -/
  | zeroWord
  /-- The run ends in `Halted` with exit code 0. -/
  | halt
deriving DecidableEq, Repr

/-- The parameters the model takes as an argument (00_scope.md R7). State carries one value of this type and
no step writes it. DESIGN CHOICE (log 5). -/
structure Config where
  /-- `FETCH_EMPTY` (20_memory.md R59). -/
  fetchEmpty : FetchEmpty
  /-- `ENFORCE_KERNEL_PRIV` (20_memory.md R53). -/
  enforceKernelPriv : Bool
deriving DecidableEq, Repr

/-- The defaults of 00_scope.md R7. -/
def Config.default : Config := { fetchEmpty := .zeroWord, enforceKernelPriv := true }

/-- `DIV0_HI`: HI after a division by zero, one free value per draw (00_scope.md R7, R16; log 6). -/
opaque Config.div0Hi : Nat → Word

/-- `DIV0_LO`: LO after a division by zero (00_scope.md R7, R16; log 6). -/
opaque Config.div0Lo : Nat → Word

/-- `MUL_HI`: HI after `mul` (00_scope.md R7, R16; log 6). -/
opaque Config.mulHi : Nat → Word

/-- `MUL_LO`: LO after `mul` (00_scope.md R7, R16; log 6). -/
opaque Config.mulLo : Nat → Word

/-- `CONSOLE_IN` for service 5 when no answer is lined up in State (44_system.md R214; log 4). -/
opaque Config.consoleInt : Nat → Option Word

/-- `CONSOLE_IN` for service 8 when no answer is lined up in State (44_system.md R215; log 4). -/
opaque Config.consoleStr : Nat → List Byte

end Sys2Proof
end

