-- ==== Sys2Proof/Machine/State.lean ====
section
/-! DEFINITION. The machine's state as plain data (10_state.md), the reasons a step can stop, and the state at
power-on. -/

namespace Sys2Proof.Machine

/-! ### Exceptions and the fault record -/

/-- The exceptions the block raises (60_exceptions.md R240), with the operands a rule reads or names. The offending
word of `InvalidOpcode` and `DelaySlotControlTransfer` is recorded nowhere (10_state.md R35) and is left out. DESIGN CHOICE
(log 14). -/
inductive Exc where
  /-- `AddressErrorFetch(a)`. -/
  | addressErrorFetch (a : Word)
  /-- `AddressErrorLoad(a)`. -/
  | addressErrorLoad (a : Word)
  /-- `AddressErrorStore(a)`. -/
  | addressErrorStore (a : Word)
  /-- `ArithmeticOverflow`. -/
  | arithmeticOverflow
  /-- `InvalidOpcode`. -/
  | invalidOpcode
  /-- `DelaySlotControlTransfer`. -/
  | delaySlotControlTransfer
  /-- `SyscallError(n)`. -/
  | syscallError (n : Word)
  /-- `Breakpoint(code)`; no rule reads the code (44_system.md R218). -/
  | breakpoint (code : BitVec 20)
  /-- `Trap(code)`; no rule reads the code (44_system.md R219). -/
  | trap (code : BitVec 10)
deriving DecidableEq, Repr

/-- `FaultReason` (10_state.md R35). -/
inductive FaultReason where
  | addressErrorFetch | addressErrorLoad | addressErrorStore | arithmeticOverflow | invalidOpcode
  | delaySlotControlTransfer | syscallError | unhandledBreakpoint | unhandledTrap | nestedException
deriving DecidableEq, Repr

/-- `ErrorKind` (10_state.md R35). -/
inductive ErrorKind where
  | addressError | arithmeticFault | invalidOpcodeError | syscallError | unhandledException
deriving DecidableEq, Repr

/-- The register snapshot of a fault record (10_state.md R35). `gpr` holds x[1] to x[31]; x[0] is 0. -/
structure Snapshot where
  gpr : Vector Word 31
  pc : Word
  hi : Word
  lo : Word
  badVAddr : Word
  status : Word
  cause : Word
  epc : Word
deriving DecidableEq, Repr

/-- `faultInfo` (10_state.md R35). -/
structure FaultInfo where
  addr : Word
  reason : FaultReason
  kind : ErrorKind
  excCode : BitVec 5
  badAddr : Option Word
  snapshot : Snapshot
deriving DecidableEq, Repr

/-! ### Run control -/

/-- `runState` (10_state.md R34). -/
inductive RunState where
  | idle | loaded | running | paused | halted | faulted
deriving DecidableEq, Repr

/-- A pending transfer `Some(T, B)` (10_state.md R25). -/
structure Pending where
  /-- `T`: where control goes after the delay slot. -/
  target : Word
  /-- `B`: the address of the branch or jump. -/
  branch : Word
deriving DecidableEq, Repr

/-- A ProgramImage (00_scope.md R11). No rule reads `symbols`. -/
structure Image where
  text : List (Word × Word)
  data : List (Word × Byte)
  entry : Word
  symbols : List (String × Word)
deriving DecidableEq, Repr

/-- The host's commands (00_scope.md R8). -/
inductive Command where
  | load (image : Image)
  | reset
  | run
  | step
  | pause
  | stop
  | setBreakpoint (a : Word)
  | clearBreakpoint (a : Word)
deriving DecidableEq, Repr

/-- Memory: the bytes that differ from what an unlisted address reads as, by rising address (20_memory.md R50, R51). -/
abbrev Memory := List Host.Cell

/-! ### The state -/

/-- Everything the spec gives the machine (10_state.md), and the model's own `commands`, `consoleOut`, `consoleInts`,
`consoleStrs`, `cfg` and `drawCount` (logs 2 to 6). -/
structure State where
  /-- x[1] to x[31], x[i] at index i - 1; x[0] has no storage (10_state.md R20, R21). -/
  gpr : Vector Word 31
  /-- The program counter (10_state.md R24). -/
  pc : Word
  /-- The delay-slot state (10_state.md R25). -/
  pend : Option Pending
  /-- HI (10_state.md R26). -/
  hi : Word
  /-- LO (10_state.md R26). -/
  lo : Word
  /-- CP0 register 8 (10_state.md R28). -/
  badVAddr : Word
  /-- CP0 register 12 (10_state.md R29). -/
  status : Word
  /-- CP0 register 13 (10_state.md R30). -/
  cause : Word
  /-- CP0 register 14 (10_state.md R31). -/
  epc : Word
  /-- LLbit (10_state.md R32). -/
  llBit : Bool
  /-- Memory (20_memory.md R50, R51). -/
  mem : Memory
  /-- 10_state.md R34. -/
  runState : RunState
  /-- 10_state.md R35. -/
  faultInfo : Option FaultInfo
  /-- The breakpoint set as a strictly rising list (10_state.md R36). -/
  breakpoints : List Word
  /-- 10_state.md R36. -/
  skipBreak : Bool
  /-- 10_state.md R37. -/
  heapTop : Word
  /-- 10_state.md R38. -/
  exitCode : Option Word
  /-- The image last loaded (10_state.md R39); none before the first load. -/
  image : Option Image
  /-- The host's commands not yet taken, oldest first (00_scope.md R8, 70_reset_and_hazards.md R280). DESIGN CHOICE (log 2). -/
  commands : List Command
  /-- The bytes sent to the console sink so far, oldest first (00_scope.md R10). DESIGN CHOICE (log 3). -/
  consoleOut : List Byte
  /-- The host's answers to service 5 that are lined up, oldest first (44_system.md R214). DESIGN CHOICE (log 4). -/
  consoleInts : List (Option Word)
  /-- The host's answers to service 8 that are lined up, oldest first (44_system.md R215). DESIGN CHOICE (log 4). -/
  consoleStrs : List (List Byte)
  /-- The parameters of 00_scope.md R7; no step writes them. DESIGN CHOICE (log 5). -/
  cfg : Config
  /-- The MODEL's own: the index of the next free value (00_scope.md R16). DESIGN CHOICE (log 6). -/
  drawCount : Nat
deriving DecidableEq, Repr

/-! ### Why a step can stop -/

/-- The faults of a step. Every exception of the spec is a next state (60_exceptions.md R243 to R246), so a step faults
only where the block takes no step at all. No instruction's meaning raises one. DESIGN CHOICE (log 7). -/
inductive Fault where
  /-- Raised by `step` in `Idle`, `Loaded` and `Paused` when no command waits: the interpreter runs only while `Running`
  (70_reset_and_hazards.md R280). Safe: the block does nothing until the host commands it. -/
  | awaitingCommand
  /-- Raised by `step` in `Halted` when no command waits: terminal, no step runs (70_reset_and_hazards.md R287). Safe. -/
  | halted
  /-- Raised by `step` in `Faulted` when no command waits: terminal, no step runs (70_reset_and_hazards.md R287). Safe. -/
  | faulted
deriving DecidableEq, Repr

/-- The refusals of a step. -/
inductive Refusal where
  /-- Raised by an arm of `exec` whose instruction has no meaning yet. Safe. No arm of this model raises it. -/
  | notModelled (mnemonic : String)
deriving DecidableEq, Repr

/-! ### Reset -/

/-- `$gp` and `$sp` as 10_state.md R42 gives them, every other register 0. -/
def resetGpr : Vector Word 31 :=
  ((Vector.replicate 31 0#32).set 27 0x10008000#32).set 28 0x7FFFEFFC#32

/-- The block at power-on (70_reset_and_hazards.md R291): `Idle`, no image, no breakpoint. Every other item is unspecified
there; it holds its value on entry to `Loaded` (10_state.md R42), and pc the base of the text segment. DESIGN CHOICE (log 1). -/
def State.reset : State where
  gpr := resetGpr
  pc := 0x00400000#32
  pend := none
  hi := 0#32
  lo := 0#32
  badVAddr := 0#32
  status := 0x0000FF11#32
  cause := 0#32
  epc := 0#32
  llBit := false
  mem := []
  runState := .idle
  faultInfo := none
  breakpoints := []
  skipBreak := false
  heapTop := 0x10040000#32
  exitCode := none
  image := none
  commands := []
  consoleOut := []
  consoleInts := []
  consoleStrs := []
  cfg := Config.default
  drawCount := 0

end Sys2Proof.Machine
end

