-- ==== Sys2Proof/Machine/Memory.lean ====
section
/-! DEFINITION. Memory as a canonical list, the segment table and the image's text words (20_memory.md R50 to R54). -/

namespace Sys2Proof.Machine

/-! ### One byte -/

/-- What an address that is not listed reads as (20_memory.md R51). -/
def unlistedByte : Byte := 0#8

/-- The byte at an address (20_memory.md R51). -/
def Memory.read : Memory → Nat → Byte
  | [], _ => unlistedByte
  | (b, v) :: rest, a => if a = b then v else Memory.read rest a

/-- Put a cell in front unless its byte is what an unlisted address reads as. -/
def Memory.consCell (a : Nat) (v : Byte) (rest : Memory) : Memory :=
  if v = unlistedByte then rest else (a, v) :: rest

/-- Write one byte, keeping the addresses strictly rising and listing no byte an unlisted address reads as. -/
def Memory.write : Memory → Nat → Byte → Memory
  | [], a, v => Memory.consCell a v []
  | (b, u) :: rest, a, v =>
    if a < b then Memory.consCell a v ((b, u) :: rest)
    else if a = b then Memory.consCell a v rest
    else (b, u) :: Memory.write rest a v

/-- The canonical form from address `lo` on: strictly rising addresses below 2^32, none listed with the unlisted byte. -/
def Memory.wfFrom : Nat → Memory → Bool
  | _, [] => true
  | lo, (a, v) :: rest => decide (lo ≤ a) && decide (a < 2 ^ 32) && decide (v ≠ unlistedByte) && Memory.wfFrom (a + 1) rest

/-- The canonical form of a memory. -/
def Memory.wf (m : Memory) : Bool := Memory.wfFrom 0 m

/-! ### Several bytes, little-endian (20_memory.md R54) -/

/-- The byte at a 32-bit address (20_memory.md R50). -/
def Memory.byteAt (m : Memory) (a : Word) : Byte := Memory.read m a.toNat

/-- Write the byte at a 32-bit address. -/
def Memory.setByteAt (m : Memory) (a : Word) (v : Byte) : Memory := Memory.write m a.toNat v

/-- The width of an access (20_memory.md R56). -/
inductive Width where
  | byte | half | word
deriving DecidableEq, Repr

/-- The number of bytes of an access (20_memory.md R56). -/
def widthBytes : Width → Nat
  | .byte => 1
  | .half => 2
  | .word => 4

/-- The little-endian value at `a`, as an unsigned number (20_memory.md R54, R57). -/
def Memory.load (m : Memory) (a : Word) : Width → Word
  | .byte => (Memory.byteAt m a).setWidth 32
  | .half => (Memory.byteAt m (a + 1) ++ Memory.byteAt m a).setWidth 32
  | .word => wordOfBytes (Memory.byteAt m a) (Memory.byteAt m (a + 1)) (Memory.byteAt m (a + 2)) (Memory.byteAt m (a + 3))

/-- Write bytes at `a`, `a + 1`, and so on. -/
def Memory.storeBytes : Memory → Word → List Byte → Memory
  | m, _, [] => m
  | m, a, b :: bs => Memory.storeBytes (Memory.setByteAt m a b) (a + 1) bs

/-- The low bytes of a word that an access of a width moves, lowest address first (20_memory.md R54, R58). -/
def lowBytes (v : Word) : Width → List Byte
  | .byte => [byteOf v 0]
  | .half => [byteOf v 0, byteOf v 1]
  | .word => [byteOf v 0, byteOf v 1, byteOf v 2, byteOf v 3]

/-- Write a value little-endian at `a` (20_memory.md R54, R58). -/
def Memory.store (m : Memory) (a : Word) (w : Width) (v : Word) : Memory := Memory.storeBytes m a (lowBytes v w)

/-! ### Segments (20_memory.md R52) -/

/-- The rows of the segment table (20_memory.md R52). -/
inductive Segment where
  | reserved | text | data | kernelText | kernelData | ioWindow
deriving DecidableEq, Repr

/-- The row that holds an address (20_memory.md R52). -/
def segmentOf (a : Word) : Segment :=
  if a.toNat ≤ 0x003FFFFF then .reserved
  else if a.toNat ≤ 0x0FFFFFFF then .text
  else if a.toNat ≤ 0x7FFFFFFF then .data
  else if a.toNat ≤ 0x8FFFFFFF then .kernelText
  else if a.toNat ≤ 0xFFFEFFFF then .kernelData
  else .ioWindow

/-- Whether a segment is mapped (20_memory.md R52). -/
def segMapped : Segment → Bool
  | .reserved | .ioWindow => false
  | .text | .data | .kernelText | .kernelData => true

/-- The kind of an access (20_memory.md R53). -/
inductive AccessKind where
  | fetch | load | store
deriving DecidableEq, Repr

/-- The fetch, read and write columns (20_memory.md R52). -/
def segPermits : Segment → AccessKind → Bool
  | .text, .fetch | .kernelText, .fetch => true
  | .data, .fetch | .kernelData, .fetch => false
  | .text, .load | .data, .load | .kernelText, .load | .kernelData, .load => true
  | .data, .store | .kernelData, .store => true
  | .text, .store | .kernelText, .store => false
  | .reserved, _ | .ioWindow, _ => false

/-- The kernel-only column (20_memory.md R52). -/
def segKernelOnly : Segment → Bool
  | .kernelText | .kernelData => true
  | .reserved | .text | .data | .ioWindow => false

/-- Alignment (20_memory.md R53, R55). -/
def aligned (a : Word) : Width → Bool
  | .byte => true
  | .half => a.extractLsb' 0 1 == 0#1
  | .word => a.extractLsb' 0 2 == 0#2

/-! ### The image (00_scope.md R11, 10_state.md R39) -/

/-- Whether an image defines a text word at an address (20_memory.md R59, 60_exceptions.md R247). -/
def Image.definesText (img : Image) (a : Word) : Bool := img.text.any (fun p => p.1 == a)

/-- Whether a segment can hold instructions (70_reset_and_hazards.md R281). -/
def isTextSegment (a : Word) : Bool := segmentOf a == .text || segmentOf a == .kernelText

/-- Whether a segment can hold data bytes (70_reset_and_hazards.md R281). -/
def isDataSegment (a : Word) : Bool := segmentOf a == .data || segmentOf a == .kernelData

/-- No entry twice. -/
def noRepeats : List Word → Bool
  | [] => true
  | a :: rest => !(rest.contains a) && noRepeats rest

/-- The validation of `load` (70_reset_and_hazards.md R281). -/
def Image.valid (img : Image) : Bool :=
  img.text.all (fun p => aligned p.1 .word && isTextSegment p.1)
    && img.data.all (fun p => isDataSegment p.1)
    && noRepeats (img.text.map (fun p => p.1)) && noRepeats (img.data.map (fun p => p.1))
    && aligned img.entry .word && isTextSegment img.entry

/-- Write the text words of an image little-endian (70_reset_and_hazards.md R281). -/
def Memory.installText : Memory → List (Word × Word) → Memory
  | m, [] => m
  | m, (a, w) :: rest => Memory.installText (Memory.store m a .word w) rest

/-- Write the data bytes of an image (70_reset_and_hazards.md R281). -/
def Memory.installData : Memory → List (Word × Byte) → Memory
  | m, [] => m
  | m, (a, b) :: rest => Memory.installData (Memory.setByteAt m a b) rest

/-- Memory right after an image is installed: zero everywhere, then its text words and data bytes (20_memory.md R51). -/
def Image.memory (img : Image) : Memory := Memory.installData (Memory.installText [] img.text) img.data

end Sys2Proof.Machine
end

