-- ==== Sys2Proof/Machine/Ops.lean ====
section
/-! DEFINITION. The named operations over registers, memory, exceptions and the scheduler. Every meaning is written
from these. -/

namespace Sys2Proof.Machine

/-! ### General registers (10_state.md R20, R21) -/

/-- x[r] (10_state.md R20, R21): x[0] reads 0. -/
def State.reg (s : State) (r : Reg) : Word :=
  if r = 0#5 then 0#32 else s.gpr[r.toNat - 1]'(by have := r.isLt; omega)

/-- x[r] <- v (10_state.md R21): a write to x[0] is discarded. -/
def State.setReg (s : State) (r : Reg) (v : Word) : State :=
  if r = 0#5 then s else { s with gpr := s.gpr.set (r.toNat - 1) v (by have := r.isLt; omega) }

/-! ### Coprocessor 0 (10_state.md R27 to R33) -/

/-- `Status.EXL`, bit 1 (10_state.md R29). -/
def State.exl (s : State) : Bool := s.status.getLsbD 1

/-- `Status.UM`, bit 4 (10_state.md R29). -/
def State.um (s : State) : Bool := s.status.getLsbD 4

/-- Kernel mode (10_state.md R33). -/
def State.kernel (s : State) : Bool := s.exl || !s.um

/-- `Status` with `EXL` set, its other bits as they were (10_state.md R29). -/
def withExl (status : Word) : Word := status ||| 0x00000002#32

/-- `Status` with `EXL` clear, its other bits as they were (10_state.md R29). -/
def withoutExl (status : Word) : Word := status &&& 0xFFFFFFFD#32

/-- `Cause` with `ExcCode`, bits 6:2, replaced (10_state.md R30). -/
def withExcCode (cause : Word) (code : BitVec 5) : Word :=
  (cause &&& 0xFFFFFF83#32) ||| (code.setWidth 32 <<< 2)

/-- `Cause` with `BD`, bit 31, replaced (10_state.md R30). -/
def withBd (cause : Word) (bd : Bool) : Word :=
  if bd then cause ||| 0x80000000#32 else cause &&& 0x7FFFFFFF#32

/-- CP0[n], if the register exists (10_state.md R27). -/
def State.cp0 (s : State) (n : BitVec 5) : Option Word :=
  if n = 8#5 then some s.badVAddr
  else if n = 12#5 then some s.status
  else if n = 13#5 then some s.cause
  else if n = 14#5 then some s.epc
  else none

/-- CP0[n] <- v, all 32 bits with no mask, if the register exists (10_state.md R27). -/
def State.setCp0 (s : State) (n : BitVec 5) (v : Word) : Option State :=
  if n = 8#5 then some { s with badVAddr := v }
  else if n = 12#5 then some { s with status := v }
  else if n = 13#5 then some { s with cause := v }
  else if n = 14#5 then some { s with epc := v }
  else none

/-! ### The scheduler (43_control.md R181) -/

/-- The outcome of an instruction that does not raise (00_scope.md R15). -/
inductive NextPc where
  /-- `Seq`. -/
  | seq
  /-- `Branch(T)`. -/
  | branch (target : Word)
  /-- `Return(T)`. -/
  | ret (target : Word)
  /-- `Halt(code)`. -/
  | halt (code : Word)
deriving DecidableEq, Repr

/-- `Schedule` (43_control.md R181) for the instruction at `s.pc` in the slot state `s.pend`. A branch or a return never
comes here with a pending transfer: `controlTransfer` below raises first (R182). -/
def State.schedule (s : State) : NextPc → State
  | .seq =>
    match s.pend with
    | none => { s with pc := s.pc + 4 }
    | some p => { s with pc := p.target, pend := none }
  | .branch t => { s with pc := s.pc + 4, pend := some { target := t, branch := s.pc } }
  | .ret t => { s with pc := t, pend := none }
  | .halt code => { s with pend := none, runState := .halted, exitCode := some code }

/-! ### Taking an exception (60_exceptions.md R240 to R249) -/

/-- `HANDLER_ADDR` (00_scope.md R7, 60_exceptions.md R245). -/
def handlerAddr : Word := 0x80000180#32

/-- The image defines a text word at an address (10_state.md R39); with no image none is defined. DESIGN CHOICE (log 13). -/
def State.imageDefines (s : State) (a : Word) : Bool :=
  match s.image with
  | none => false
  | some img => img.definesText a

/-- A handler is installed (60_exceptions.md R247). -/
def State.handlerInstalled (s : State) : Bool := s.imageDefines handlerAddr

/-- `Cause.ExcCode` of an exception (60_exceptions.md R240). -/
def excCode : Exc → BitVec 5
  | .addressErrorFetch _ => 4#5
  | .addressErrorLoad _ => 4#5
  | .addressErrorStore _ => 5#5
  | .arithmeticOverflow => 12#5
  | .invalidOpcode => 10#5
  | .delaySlotControlTransfer => 10#5
  | .syscallError _ => 8#5
  | .breakpoint _ => 9#5
  | .trap _ => 13#5

/-- The bad address of an address error (60_exceptions.md R240). -/
def excBadAddr : Exc → Option Word
  | .addressErrorFetch a => some a
  | .addressErrorLoad a => some a
  | .addressErrorStore a => some a
  | .arithmeticOverflow | .invalidOpcode | .delaySlotControlTransfer => none
  | .syscallError _ | .breakpoint _ | .trap _ => none

/-- Whether an exception is deliverable (60_exceptions.md R240). -/
def excDeliverable : Exc → Bool
  | .breakpoint _ | .trap _ => true
  | .addressErrorFetch _ | .addressErrorLoad _ | .addressErrorStore _ => false
  | .arithmeticOverflow | .invalidOpcode | .delaySlotControlTransfer | .syscallError _ => false

/-- The reason of an exception that ends fatally with `EXL` 0 before it (60_exceptions.md R240, R244). -/
def excReason : Exc → FaultReason
  | .addressErrorFetch _ => .addressErrorFetch
  | .addressErrorLoad _ => .addressErrorLoad
  | .addressErrorStore _ => .addressErrorStore
  | .arithmeticOverflow => .arithmeticOverflow
  | .invalidOpcode => .invalidOpcode
  | .delaySlotControlTransfer => .delaySlotControlTransfer
  | .syscallError _ => .syscallError
  | .breakpoint _ => .unhandledBreakpoint
  | .trap _ => .unhandledTrap

/-- The error kind of an exception (60_exceptions.md R240). -/
def excKind : Exc → ErrorKind
  | .addressErrorFetch _ | .addressErrorLoad _ | .addressErrorStore _ => .addressError
  | .arithmeticOverflow => .arithmeticFault
  | .invalidOpcode | .delaySlotControlTransfer => .invalidOpcodeError
  | .syscallError _ => .syscallError
  | .breakpoint _ | .trap _ => .unhandledException

/-- The register snapshot of a fault record (10_state.md R35). -/
def State.snapshot (s : State) : Snapshot where
  gpr := s.gpr
  pc := s.pc
  hi := s.hi
  lo := s.lo
  badVAddr := s.badVAddr
  status := s.status
  cause := s.cause
  epc := s.epc

/-- What every exception writes (60_exceptions.md R243): BadVAddr for an address error, `Cause.ExcCode`, EPC and
`Cause.BD` when `EXL` was 0, `EXL`, and no pending transfer. -/
def State.recordException (s : State) (e : Exc) : State :=
  { s with
    badVAddr := (excBadAddr e).getD s.badVAddr
    cause :=
      if s.exl then withExcCode s.cause (excCode e)
      else withBd (withExcCode s.cause (excCode e)) s.pend.isSome
    epc :=
      if s.exl then s.epc
      else match s.pend with
        | some p => p.branch
        | none => s.pc
    status := withExl s.status
    pend := none }

/-- The fatal path (60_exceptions.md R246), `s` being the state after `recordException`; pc stays. -/
def State.fatal (s : State) (e : Exc) (reason : FaultReason) : State :=
  { s with
    runState := .faulted
    faultInfo := some
      { addr := s.pc
        reason := reason
        kind := excKind e
        excCode := excCode e
        badAddr := excBadAddr e
        snapshot := s.snapshot } }

/-- Take an exception raised by the instruction at `s.pc` in the slot state `s.pend`: record it (60_exceptions.md R243),
then route it (R244): deliver it to the handler (R245), or end the run (R246, R249). -/
def State.takeException (s : State) (e : Exc) : State :=
  let r := s.recordException e
  if excDeliverable e then
    if s.exl then r.fatal e .nestedException
    else if s.handlerInstalled then { r with pc := handlerAddr }
    else r.fatal e (excReason e)
  else r.fatal e (excReason e)

/-- Return from an exception (44_system.md R232, 60_exceptions.md R248): clear `EXL` and LLbit, go to EPC with no delay slot. -/
def State.returnFromException (s : State) : State :=
  { s with status := withoutExl s.status, llBit := false }.schedule (.ret s.epc)

/-! ### Memory accesses of instructions (20_memory.md R53 to R60) -/

/-- `Check(addr, n, kind)` (20_memory.md R53): alignment, mapped, permission, privilege. -/
def State.check (s : State) (a : Word) (w : Width) (k : AccessKind) : Bool :=
  aligned a w && segMapped (segmentOf a) && segPermits (segmentOf a) k
    && !(segKernelOnly (segmentOf a) && s.cfg.enforceKernelPriv && !s.kernel)

/-- `MemRead(addr, n)` (20_memory.md R57). -/
def State.memRead (s : State) (a : Word) (w : Width) : Except Exc Word :=
  if s.check a w .load then .ok (Memory.load s.mem a w) else .error (.addressErrorLoad a)

/-- `MemWrite(addr, n, v)` (20_memory.md R58): all or nothing. -/
def State.memWrite (s : State) (a : Word) (w : Width) (v : Word) : Except Exc State :=
  if s.check a w .store then .ok { s with mem := Memory.store s.mem a w v } else .error (.addressErrorStore a)

/-- The aligned word that holds an address (20_memory.md R60). -/
def wordBase (a : Word) : Word := a &&& 0xFFFFFFFC#32

/-- The number of an address's byte in its word (20_memory.md R60). -/
def byteIndex (a : Word) : Nat := (a.extractLsb' 0 2).toNat

/-- The word a partial-word load touches, checked as a whole; the bad address is the address itself (20_memory.md R60). -/
def State.memReadPartial (s : State) (a : Word) : Except Exc Word :=
  if s.check (wordBase a) .word .load then .ok (Memory.load s.mem (wordBase a) .word) else .error (.addressErrorLoad a)

/-- Store bytes within one aligned word, checked as a whole; the bad address is `a` (20_memory.md R60). -/
def State.memWritePartial (s : State) (a start : Word) (bytes : List Byte) : Except Exc State :=
  if s.check (wordBase a) .word .store then .ok { s with mem := Memory.storeBytes s.mem start bytes }
  else .error (.addressErrorStore a)

/-! ### How an instruction ends -/

/-- Write one general register and advance. -/
def State.retire (s : State) (rd : Reg) (v : Word) : State := (s.setReg rd v).schedule .seq

/-- End an instruction whose work gave a state or an exception; an exception abandons the instruction, so it is taken
in the state the instruction began with (00_scope.md R15, 60_exceptions.md R241). -/
def State.finish (s : State) : Except Exc State → State
  | .ok t => t.schedule .seq
  | .error e => s.takeException e

/-- End an instruction that writes a register with a value its work gave, or takes an exception. -/
def State.finishReg (s : State) (rd : Reg) : Except Exc Word → State
  | .ok v => s.retire rd v
  | .error e => s.takeException e

/-- A control transfer whose effects and outcome are `t` and `n`: in a delay slot it is not executed but raises
`DelaySlotControlTransfer` (43_control.md R182). -/
def State.controlTransfer (s t : State) : State :=
  if s.pend.isSome then s.takeException .delaySlotControlTransfer else t

/-- A conditional trap (44_system.md R219). -/
def State.trapIf (s : State) (cond : Bool) (code : BitVec 10) : State :=
  if cond then s.takeException (.trap code) else s.schedule .seq

/-- The next free value's index, and the state in which it is used up (00_scope.md R16; log 6). -/
def State.draw (s : State) : Nat × State := (s.drawCount, { s with drawCount := s.drawCount + 1 })

end Sys2Proof.Machine
end

