-- ==== Sys2Proof/Machine/Operands.lean ====
section
/-! DEFINITION. Every operand form (30_encoding.md R83, 42_loadstore.md R160, 43_control.md R183 to R185). -/

namespace Sys2Proof.Machine

/-- `simm` (30_encoding.md R83). -/
def simm (imm : BitVec 16) : Word := imm.signExtend 32

/-- `zimm` (30_encoding.md R83). -/
def zimm (imm : BitVec 16) : Word := imm.setWidth 32

/-- `uimm`: `imm || 0x0000` (30_encoding.md R83). -/
def uimm (imm : BitVec 16) : Word := imm ++ 0#16

/-- The effective address of a load or store (30_encoding.md R83, 42_loadstore.md R160). -/
def State.ea (s : State) (rs : Reg) (imm : BitVec 16) : Word := s.reg rs + simm imm

/-- The branch target, relative to the delay slot (30_encoding.md R83, 43_control.md R183). -/
def State.branchTarget (s : State) (imm : BitVec 16) : Word := s.pc + 4 + (simm imm <<< 2)

/-- The jump target: the top four bits of the delay slot's address, the index, 00 (30_encoding.md R83, 43_control.md R184). -/
def State.jumpTarget (s : State) (index : BitVec 26) : Word := (s.pc + 4).extractLsb' 28 4 ++ index ++ 0#2

/-- The link value and the successor of a delay slot, `A + 8` (43_control.md R185, R187). -/
def State.afterSlot (s : State) : Word := s.pc + 8

/-- The shift amount of a constant shift, 0 to 31 (30_encoding.md R83). -/
def constShift (sa : BitVec 5) : Nat := sa.toNat

/-- The shift amount of a variable shift, `x[rs][4:0]` (30_encoding.md R83). -/
def State.varShift (s : State) (rs : Reg) : Nat := ((s.reg rs).extractLsb' 0 5).toNat

end Sys2Proof.Machine
end

