-- ==== Sys2Proof/Machine/Flags.lean ====
section
/-! DEFINITION. The block has no flags (10_state.md R40). This file holds what other machines compute as flags: the
overflow test of the trapping adds (40_arith_logic.md R100) and the comparisons of the set, branch and trap
instructions. -/

namespace Sys2Proof.Machine

/-- The 33-bit exact sum (40_arith_logic.md R102). -/
def sum33 (a b : Word) : BitVec 33 := a.signExtend 33 + b.signExtend 33

/-- The 33-bit exact difference (40_arith_logic.md R104). -/
def diff33 (a b : Word) : BitVec 33 := a.signExtend 33 - b.signExtend 33

/-- Overflow of a 33-bit result: `s[32] != s[31]` (40_arith_logic.md R100). -/
def overflows (r : BitVec 33) : Bool := r.getLsbD 32 != r.getLsbD 31

/-- `signed(a) < signed(b)` (00_scope.md R13). -/
def ltSigned (a b : Word) : Bool := decide (a.toInt < b.toInt)

/-- `a <u b` (00_scope.md R13). -/
def ltUnsigned (a b : Word) : Bool := decide (a.toNat < b.toNat)

/-- A comparison writes exactly 0 or 1 (40_arith_logic.md R100). -/
def boolWord (b : Bool) : Word := if b then 1#32 else 0#32

/-- End a trapping add or subtract: raise on overflow, else write bits 31:0 (40_arith_logic.md R100, R102). -/
def State.retireChecked (s : State) (rd : Reg) (r : BitVec 33) : State :=
  if overflows r then s.takeException .arithmeticOverflow else s.retire rd (r.extractLsb' 0 32)

/-- A conditional branch: to its target when the condition holds, else past its delay slot; both have the slot
(43_control.md R187). -/
def State.branchIf (s : State) (cond : Bool) (imm : BitVec 16) : NextPc :=
  .branch (if cond then s.branchTarget imm else s.afterSlot)

end Sys2Proof.Machine
end

