-- ==== Sys2Proof/Machine/Arith.lean ====
section
/-! DEFINITION. Arithmetic, logic, compare, shift, conditional move and bit count (40_arith_logic.md). -/

namespace Sys2Proof.Machine

/-- A meaning's answer. -/
abbrev Result := Host.Outcome State Fault Refusal

/-- `add` (40_arith_logic.md R102). -/
def execAdd (rd rs rt : Reg) (s : State) : Result := .next (s.retireChecked rd (sum33 (s.reg rs) (s.reg rt)))

/-- `addu` (40_arith_logic.md R103). -/
def execAddu (rd rs rt : Reg) (s : State) : Result := .next (s.retire rd (s.reg rs + s.reg rt))

/-- `sub` (40_arith_logic.md R104). -/
def execSub (rd rs rt : Reg) (s : State) : Result := .next (s.retireChecked rd (diff33 (s.reg rs) (s.reg rt)))

/-- `subu` (40_arith_logic.md R105). -/
def execSubu (rd rs rt : Reg) (s : State) : Result := .next (s.retire rd (s.reg rs - s.reg rt))

/-- `addi` (40_arith_logic.md R106). -/
def execAddi (rt rs : Reg) (imm : BitVec 16) (s : State) : Result :=
  .next (s.retireChecked rt (sum33 (s.reg rs) (simm imm)))

/-- `addiu` (40_arith_logic.md R107). -/
def execAddiu (rt rs : Reg) (imm : BitVec 16) (s : State) : Result := .next (s.retire rt (s.reg rs + simm imm))

/-- `and` (40_arith_logic.md R108). -/
def execAnd (rd rs rt : Reg) (s : State) : Result := .next (s.retire rd (s.reg rs &&& s.reg rt))

/-- `or` (40_arith_logic.md R109). -/
def execOr (rd rs rt : Reg) (s : State) : Result := .next (s.retire rd (s.reg rs ||| s.reg rt))

/-- `xor` (40_arith_logic.md R110). -/
def execXor (rd rs rt : Reg) (s : State) : Result := .next (s.retire rd (s.reg rs ^^^ s.reg rt))

/-- `nor` (40_arith_logic.md R111). -/
def execNor (rd rs rt : Reg) (s : State) : Result := .next (s.retire rd (~~~(s.reg rs ||| s.reg rt)))

/-- `andi` (40_arith_logic.md R112). -/
def execAndi (rt rs : Reg) (imm : BitVec 16) (s : State) : Result := .next (s.retire rt (s.reg rs &&& zimm imm))

/-- `ori` (40_arith_logic.md R113). -/
def execOri (rt rs : Reg) (imm : BitVec 16) (s : State) : Result := .next (s.retire rt (s.reg rs ||| zimm imm))

/-- `xori` (40_arith_logic.md R114). -/
def execXori (rt rs : Reg) (imm : BitVec 16) (s : State) : Result := .next (s.retire rt (s.reg rs ^^^ zimm imm))

/-- `lui` (40_arith_logic.md R115). -/
def execLui (rt : Reg) (imm : BitVec 16) (s : State) : Result := .next (s.retire rt (uimm imm))

/-- `slt` (40_arith_logic.md R116). -/
def execSlt (rd rs rt : Reg) (s : State) : Result := .next (s.retire rd (boolWord (ltSigned (s.reg rs) (s.reg rt))))

/-- `sltu` (40_arith_logic.md R117). -/
def execSltu (rd rs rt : Reg) (s : State) : Result := .next (s.retire rd (boolWord (ltUnsigned (s.reg rs) (s.reg rt))))

/-- `slti` (40_arith_logic.md R118). -/
def execSlti (rt rs : Reg) (imm : BitVec 16) (s : State) : Result :=
  .next (s.retire rt (boolWord (ltSigned (s.reg rs) (simm imm))))

/-- `sltiu` (40_arith_logic.md R119): the sign-extended immediate compared unsigned. -/
def execSltiu (rt rs : Reg) (imm : BitVec 16) (s : State) : Result :=
  .next (s.retire rt (boolWord (ltUnsigned (s.reg rs) (simm imm))))

/-- `sll` (40_arith_logic.md R120). -/
def execSll (rd rt : Reg) (sa : BitVec 5) (s : State) : Result := .next (s.retire rd (s.reg rt <<< constShift sa))

/-- `srl` (40_arith_logic.md R121). -/
def execSrl (rd rt : Reg) (sa : BitVec 5) (s : State) : Result := .next (s.retire rd (s.reg rt >>> constShift sa))

/-- `sra` (40_arith_logic.md R122). -/
def execSra (rd rt : Reg) (sa : BitVec 5) (s : State) : Result :=
  .next (s.retire rd ((s.reg rt).sshiftRight (constShift sa)))

/-- `sllv` (40_arith_logic.md R123). -/
def execSllv (rd rt rs : Reg) (s : State) : Result := .next (s.retire rd (s.reg rt <<< s.varShift rs))

/-- `srlv` (40_arith_logic.md R124). -/
def execSrlv (rd rt rs : Reg) (s : State) : Result := .next (s.retire rd (s.reg rt >>> s.varShift rs))

/-- `srav` (40_arith_logic.md R125). -/
def execSrav (rd rt rs : Reg) (s : State) : Result := .next (s.retire rd ((s.reg rt).sshiftRight (s.varShift rs)))

/-- `movz` (40_arith_logic.md R126). -/
def execMovz (rd rs rt : Reg) (s : State) : Result :=
  .next (if s.reg rt = 0#32 then s.retire rd (s.reg rs) else s.schedule .seq)

/-- `movn` (40_arith_logic.md R127). -/
def execMovn (rd rs rt : Reg) (s : State) : Result :=
  .next (if s.reg rt ≠ 0#32 then s.retire rd (s.reg rs) else s.schedule .seq)

/-- The number of 0 bits from bit `n - 1` down to the first 1 bit (40_arith_logic.md R128). -/
def leadingZeros (v : Word) : Nat → Nat
  | 0 => 0
  | n + 1 => if v.getLsbD n then 0 else leadingZeros v n + 1

/-- `clz` (40_arith_logic.md R128). -/
def execClz (rd rs : Reg) (s : State) : Result := .next (s.retire rd (BitVec.ofNat 32 (leadingZeros (s.reg rs) 32)))

/-- `clo` (40_arith_logic.md R129): the leading 1 bits are the leading 0 bits of the complement. -/
def execClo (rd rs : Reg) (s : State) : Result := .next (s.retire rd (BitVec.ofNat 32 (leadingZeros (~~~(s.reg rs)) 32)))

/-- `nop` (40_arith_logic.md R130). -/
def execNop (s : State) : Result := .next (s.schedule .seq)

end Sys2Proof.Machine
end

