-- ==== Sys2Proof/Machine/Control.lean ====
section
/-! DEFINITION. Branches and jumps (43_control.md). Each goes through `controlTransfer`, which refuses it in a delay
slot (43_control.md R182). -/

namespace Sys2Proof.Machine

/-- `x[rs]` compared with zero as a signed number (43_control.md R192 to R197). -/
def isNegative (v : Word) : Bool := decide (v.toInt < 0)

/-- `beq` (43_control.md R190). -/
def execBeq (rs rt : Reg) (imm : BitVec 16) (s : State) : Result :=
  .next (s.controlTransfer (s.schedule (s.branchIf (s.reg rs == s.reg rt) imm)))

/-- `bne` (43_control.md R191). -/
def execBne (rs rt : Reg) (imm : BitVec 16) (s : State) : Result :=
  .next (s.controlTransfer (s.schedule (s.branchIf (s.reg rs != s.reg rt) imm)))

/-- `blez` (43_control.md R192). -/
def execBlez (rs : Reg) (imm : BitVec 16) (s : State) : Result :=
  .next (s.controlTransfer (s.schedule (s.branchIf (decide ((s.reg rs).toInt ≤ 0)) imm)))

/-- `bgtz` (43_control.md R193). -/
def execBgtz (rs : Reg) (imm : BitVec 16) (s : State) : Result :=
  .next (s.controlTransfer (s.schedule (s.branchIf (decide (0 < (s.reg rs).toInt)) imm)))

/-- `bltz` (43_control.md R194). -/
def execBltz (rs : Reg) (imm : BitVec 16) (s : State) : Result :=
  .next (s.controlTransfer (s.schedule (s.branchIf (isNegative (s.reg rs)) imm)))

/-- `bgez` (43_control.md R195). -/
def execBgez (rs : Reg) (imm : BitVec 16) (s : State) : Result :=
  .next (s.controlTransfer (s.schedule (s.branchIf (!isNegative (s.reg rs)) imm)))

/-- `bltzal` (43_control.md R196): the condition reads the old `x[rs]`; the link is written taken or not. -/
def execBltzal (rs : Reg) (imm : BitVec 16) (s : State) : Result :=
  .next (s.controlTransfer ((s.setReg 31#5 s.afterSlot).schedule (s.branchIf (isNegative (s.reg rs)) imm)))

/-- `bgezal` (43_control.md R197). -/
def execBgezal (rs : Reg) (imm : BitVec 16) (s : State) : Result :=
  .next (s.controlTransfer ((s.setReg 31#5 s.afterSlot).schedule (s.branchIf (!isNegative (s.reg rs)) imm)))

/-- `j` (43_control.md R198). -/
def execJ (index : BitVec 26) (s : State) : Result :=
  .next (s.controlTransfer (s.schedule (.branch (s.jumpTarget index))))

/-- `jal` (43_control.md R199). -/
def execJal (index : BitVec 26) (s : State) : Result :=
  .next (s.controlTransfer ((s.setReg 31#5 s.afterSlot).schedule (.branch (s.jumpTarget index))))

/-- `jr` (43_control.md R200). -/
def execJr (rs : Reg) (s : State) : Result := .next (s.controlTransfer (s.schedule (.branch (s.reg rs))))

/-- `jalr` (43_control.md R201): the target is the old `x[rs]`. -/
def execJalr (rd rs : Reg) (s : State) : Result :=
  .next (s.controlTransfer ((s.setReg rd s.afterSlot).schedule (.branch (s.reg rs))))

end Sys2Proof.Machine
end

