-- ==== Sys2Proof/Machine/LoadStore.lean ====
section
/-! DEFINITION. Loads and stores (42_loadstore.md). -/

namespace Sys2Proof.Machine

/-- Sign-extend the low byte of a loaded value (42_loadstore.md R160). -/
def sextByte (v : Word) : Word := (v.extractLsb' 0 8).signExtend 32

/-- Sign-extend the low halfword of a loaded value (42_loadstore.md R160). -/
def sextHalf (v : Word) : Word := (v.extractLsb' 0 16).signExtend 32

/-- `lb` (42_loadstore.md R161). -/
def execLb (rt rs : Reg) (imm : BitVec 16) (s : State) : Result :=
  .next (s.finishReg rt ((s.memRead (s.ea rs imm) .byte).map sextByte))

/-- `lbu` (42_loadstore.md R162). -/
def execLbu (rt rs : Reg) (imm : BitVec 16) (s : State) : Result :=
  .next (s.finishReg rt (s.memRead (s.ea rs imm) .byte))

/-- `lh` (42_loadstore.md R163). -/
def execLh (rt rs : Reg) (imm : BitVec 16) (s : State) : Result :=
  .next (s.finishReg rt ((s.memRead (s.ea rs imm) .half).map sextHalf))

/-- `lhu` (42_loadstore.md R164). -/
def execLhu (rt rs : Reg) (imm : BitVec 16) (s : State) : Result :=
  .next (s.finishReg rt (s.memRead (s.ea rs imm) .half))

/-- `lw` (42_loadstore.md R165). -/
def execLw (rt rs : Reg) (imm : BitVec 16) (s : State) : Result :=
  .next (s.finishReg rt (s.memRead (s.ea rs imm) .word))

/-- The register value of `lwl` from the word and the old value (42_loadstore.md R166). -/
def mergeLeft (word old : Word) (b : Nat) : Word := (word <<< (8 * (3 - b))) ||| (old &&& (0x00FFFFFF#32 >>> (8 * b)))

/-- The register value of `lwr` from the word and the old value (42_loadstore.md R167). -/
def mergeRight (word old : Word) (b : Nat) : Word := (word >>> (8 * b)) ||| (old &&& ~~~(0xFFFFFFFF#32 >>> (8 * b)))

/-- `lwl` (42_loadstore.md R166). -/
def execLwl (rt rs : Reg) (imm : BitVec 16) (s : State) : Result :=
  .next (s.finishReg rt
    ((s.memReadPartial (s.ea rs imm)).map (fun word => mergeLeft word (s.reg rt) (byteIndex (s.ea rs imm)))))

/-- `lwr` (42_loadstore.md R167). -/
def execLwr (rt rs : Reg) (imm : BitVec 16) (s : State) : Result :=
  .next (s.finishReg rt
    ((s.memReadPartial (s.ea rs imm)).map (fun word => mergeRight word (s.reg rt) (byteIndex (s.ea rs imm)))))

/-- `sb` (42_loadstore.md R168). -/
def execSb (rt rs : Reg) (imm : BitVec 16) (s : State) : Result :=
  .next (s.finish (s.memWrite (s.ea rs imm) .byte (s.reg rt)))

/-- `sh` (42_loadstore.md R169). -/
def execSh (rt rs : Reg) (imm : BitVec 16) (s : State) : Result :=
  .next (s.finish (s.memWrite (s.ea rs imm) .half (s.reg rt)))

/-- `sw` (42_loadstore.md R170). -/
def execSw (rt rs : Reg) (imm : BitVec 16) (s : State) : Result :=
  .next (s.finish (s.memWrite (s.ea rs imm) .word (s.reg rt)))

/-- The `b + 1` most significant bytes of a register, the one for the lowest address first (42_loadstore.md R171). -/
def leftBytes (v : Word) (b : Nat) : List Byte := (bytesOfWord v).drop (3 - b)

/-- The `4 - b` least significant bytes of a register, the one for the lowest address first (42_loadstore.md R172). -/
def rightBytes (v : Word) (b : Nat) : List Byte := (bytesOfWord v).take (4 - b)

/-- `swl` (42_loadstore.md R171): to `mem[w]` up to `mem[ea]`. -/
def execSwl (rt rs : Reg) (imm : BitVec 16) (s : State) : Result :=
  .next (s.finish (s.memWritePartial (s.ea rs imm) (wordBase (s.ea rs imm)) (leftBytes (s.reg rt) (byteIndex (s.ea rs imm)))))

/-- `swr` (42_loadstore.md R172): to `mem[ea]` up to `mem[w+3]`. -/
def execSwr (rt rs : Reg) (imm : BitVec 16) (s : State) : Result :=
  .next (s.finish (s.memWritePartial (s.ea rs imm) (s.ea rs imm) (rightBytes (s.reg rt) (byteIndex (s.ea rs imm)))))

/-- `ll` (42_loadstore.md R173): a word load that sets LLbit. -/
def execLl (rt rs : Reg) (imm : BitVec 16) (s : State) : Result :=
  .next (s.finish ((s.memRead (s.ea rs imm) .word).map (fun v => { s.setReg rt v with llBit := true })))

/-- `sc` (42_loadstore.md R174): the check comes first whatever LLbit is; the store happens only with LLbit set; LLbit is
cleared after its test. -/
def execSc (rt rs : Reg) (imm : BitVec 16) (s : State) : Result :=
  .next (s.finish ((s.memWrite (s.ea rs imm) .word (s.reg rt)).map (fun t =>
    if s.llBit then { t.setReg rt 1#32 with llBit := false } else { s.setReg rt 0#32 with llBit := false })))

end Sys2Proof.Machine
end

