-- ==== Sys2Proof/Machine/MulDiv.lean ====
section
/-! DEFINITION. Multiply, divide and the accumulator (41_muldiv.md). -/

namespace Sys2Proof.Machine

/-- The signed 64-bit product (41_muldiv.md R140, R141). -/
def signedProduct (a b : Word) : DWord := a.signExtend 64 * b.signExtend 64

/-- The unsigned 64-bit product (41_muldiv.md R140, R142). -/
def unsignedProduct (a b : Word) : DWord := a.setWidth 64 * b.setWidth 64

/-- `HI || LO` (41_muldiv.md R140). -/
def State.acc (s : State) : DWord := s.hi ++ s.lo

/-- `HI <- hi; LO <- lo` and advance. -/
def State.retireHiLo (s : State) (hi lo : Word) : State := { s with hi := hi, lo := lo }.schedule .seq

/-- `HI || LO <- p` and advance. -/
def State.retireAcc (s : State) (p : DWord) : State := s.retireHiLo (p.extractLsb' 32 32) (p.extractLsb' 0 32)

/-- Division by zero: HI and LO are draws (41_muldiv.md R140; log 6). -/
def State.retireDiv0 (s : State) : State :=
  match s.draw with
  | (n, t) => t.retireHiLo (Config.div0Hi n) (Config.div0Lo n)

/-- `mult` (41_muldiv.md R141). -/
def execMult (rs rt : Reg) (s : State) : Result := .next (s.retireAcc (signedProduct (s.reg rs) (s.reg rt)))

/-- `multu` (41_muldiv.md R142). -/
def execMultu (rs rt : Reg) (s : State) : Result := .next (s.retireAcc (unsignedProduct (s.reg rs) (s.reg rt)))

/-- The signed quotient, toward zero, and the remainder, both narrowed to 32 bits (41_muldiv.md R140, R143). -/
def signedDivide (a b : Word) : Word × Word :=
  if a = 0x80000000#32 ∧ b = 0xFFFFFFFF#32 then (0x80000000#32, 0#32)
  else (BitVec.ofInt 32 (a.toInt.tdiv b.toInt), BitVec.ofInt 32 (a.toInt - a.toInt.tdiv b.toInt * b.toInt))

/-- The unsigned quotient and remainder (41_muldiv.md R144). -/
def unsignedDivide (a b : Word) : Word × Word := (BitVec.ofNat 32 (a.toNat / b.toNat), BitVec.ofNat 32 (a.toNat % b.toNat))

/-- `div` (41_muldiv.md R143). -/
def execDiv (rs rt : Reg) (s : State) : Result :=
  .next (if s.reg rt = 0#32 then s.retireDiv0
    else s.retireHiLo (signedDivide (s.reg rs) (s.reg rt)).2 (signedDivide (s.reg rs) (s.reg rt)).1)

/-- `divu` (41_muldiv.md R144). -/
def execDivu (rs rt : Reg) (s : State) : Result :=
  .next (if s.reg rt = 0#32 then s.retireDiv0
    else s.retireHiLo (unsignedDivide (s.reg rs) (s.reg rt)).2 (unsignedDivide (s.reg rs) (s.reg rt)).1)

/-- `mfhi` (41_muldiv.md R145). -/
def execMfhi (rd : Reg) (s : State) : Result := .next (s.retire rd s.hi)

/-- `mflo` (41_muldiv.md R146). -/
def execMflo (rd : Reg) (s : State) : Result := .next (s.retire rd s.lo)

/-- `mthi` (41_muldiv.md R147). -/
def execMthi (rs : Reg) (s : State) : Result := .next (s.retireHiLo (s.reg rs) s.lo)

/-- `mtlo` (41_muldiv.md R148). -/
def execMtlo (rs : Reg) (s : State) : Result := .next (s.retireHiLo s.hi (s.reg rs))

/-- `mul` (41_muldiv.md R149): the low word of the product; HI and LO are draws (log 6). -/
def execMul (rd rs rt : Reg) (s : State) : Result :=
  .next (match s.draw with
    | (n, t) => (t.setReg rd ((signedProduct (s.reg rs) (s.reg rt)).extractLsb' 0 32)).retireHiLo (Config.mulHi n) (Config.mulLo n))

/-- `madd` (41_muldiv.md R150). -/
def execMadd (rs rt : Reg) (s : State) : Result := .next (s.retireAcc (s.acc + signedProduct (s.reg rs) (s.reg rt)))

/-- `maddu` (41_muldiv.md R151). -/
def execMaddu (rs rt : Reg) (s : State) : Result := .next (s.retireAcc (s.acc + unsignedProduct (s.reg rs) (s.reg rt)))

/-- `msub` (41_muldiv.md R152). -/
def execMsub (rs rt : Reg) (s : State) : Result := .next (s.retireAcc (s.acc - signedProduct (s.reg rs) (s.reg rt)))

/-- `msubu` (41_muldiv.md R153). -/
def execMsubu (rs rt : Reg) (s : State) : Result := .next (s.retireAcc (s.acc - unsignedProduct (s.reg rs) (s.reg rt)))

end Sys2Proof.Machine
end

