-- ==== Sys2Proof/Machine/Syscall.lean ====
section
/-! DEFINITION. The six syscall services (44_system.md R211 to R217). -/

namespace Sys2Proof.Machine

/-- `$v0`, the service number and result (44_system.md R211). -/
def regV0 : Reg := 2#5
/-- `$a0` (44_system.md R211). -/
def regA0 : Reg := 4#5
/-- `$a1` (44_system.md R211). -/
def regA1 : Reg := 5#5

/-! ### Console output -/

/-- Send bytes to the sink; a send never fails (00_scope.md R10; log 3). -/
def State.send (s : State) (bytes : List Byte) : State := { s with consoleOut := s.consoleOut ++ bytes }

/-- The ASCII bytes of the decimal digits of a number, no leading zeros (44_system.md R212). -/
def decimalNat (n : Nat) : List Byte := (Nat.toDigits 10 n).map (fun c => BitVec.ofNat 8 c.toNat)

/-- The decimal text of a signed number (44_system.md R212). -/
def decimalInt (i : Int) : List Byte := if i < 0 then 0x2D#8 :: decimalNat i.natAbs else decimalNat i.natAbs

/-- Service 1, print integer (44_system.md R212). -/
def State.servicePrintInt (s : State) : State := (s.send (decimalInt (s.reg regA0).toInt)).schedule .seq

/-- Read the bytes from `a` up to the first 0x00, checking each (44_system.md R213). `fuel` is the number of addresses from
`a` to the top of the address space; past the top the walk stands at address 0, which is unmapped (20_memory.md R52), so its
read fails there. -/
def State.readString (s : State) : Nat → Word → Except Exc (List Byte)
  | 0, a => .error (.addressErrorLoad a)
  | fuel + 1, a =>
    match s.memRead a .byte with
    | .error e => .error e
    | .ok v =>
      if v = 0#32 then .ok []
      else (State.readString s fuel (a + 1)).map (fun rest => byteOf v 0 :: rest)

/-- Service 4, print string (44_system.md R213): every byte is read before anything is sent. -/
def State.servicePrintString (s : State) : State :=
  s.finish ((s.readString (2 ^ 32 - (s.reg regA0).toNat) (s.reg regA0)).map (fun bytes => s.send bytes))

/-! ### Console input -/

/-- The host's answer to service 5 and the state after it is used up: the oldest one lined up, else a free value
(00_scope.md R10, 44_system.md R214; log 4). -/
def State.takeConsoleInt (s : State) : Option Word × State :=
  match s.consoleInts with
  | v :: rest => (v, { s with consoleInts := rest })
  | [] => (Config.consoleInt s.drawCount, { s with drawCount := s.drawCount + 1 })

/-- The host's answer to service 8 and the state after it is used up (00_scope.md R10, 44_system.md R215; log 4). -/
def State.takeConsoleStr (s : State) : List Byte × State :=
  match s.consoleStrs with
  | v :: rest => (v, { s with consoleStrs := rest })
  | [] => (Config.consoleStr s.drawCount, { s with drawCount := s.drawCount + 1 })

/-- Service 5, read integer (44_system.md R214). The answer is used up on an error too (log 9). -/
def State.serviceReadInt (s : State) : State :=
  match s.takeConsoleInt with
  | (some v, t) => t.retire regV0 v
  | (none, t) => t.takeException (.syscallError 5#32)

/-- The first address of `a`, `a + 1`, … whose byte may not be stored, among as many as there are bytes (44_system.md R215). -/
def State.firstBadStore (s : State) : Word → List Byte → Option Word
  | _, [] => none
  | a, _ :: rest => if s.check a .byte .store then State.firstBadStore s (a + 1) rest else some a

/-- What service 8 stores: at most `n - 1` bytes of the answer and a 0x00 (44_system.md R215). -/
def boundedString (n : Nat) (str : List Byte) : List Byte := str.take (n - 1) ++ [0#8]

/-- Service 8, read string (44_system.md R215): every address is checked before any byte is written. The answer is used up on
an error too (log 9). -/
def State.serviceReadString (s : State) : State :=
  if (s.reg regA1).toInt ≤ 0 then s.schedule .seq
  else
    match s.takeConsoleStr with
    | (str, t) =>
      match t.firstBadStore (s.reg regA0) (boundedString (s.reg regA1).toInt.toNat str) with
      | some bad => t.takeException (.addressErrorStore bad)
      | none =>
        { t with mem := Memory.storeBytes t.mem (s.reg regA0) (boundedString (s.reg regA1).toInt.toNat str) }.schedule .seq

/-! ### Memory allocation and exit -/

/-- A size rounded up to a multiple of 4 (44_system.md R216). -/
def roundUp4 (m : Nat) : Nat := (m + 3) / 4 * 4

/-- Service 9, allocate memory (44_system.md R216). -/
def State.serviceAllocate (s : State) : State :=
  if (s.reg regA0).toInt < 0 then s.takeException (.syscallError 9#32)
  else if s.heapTop.toNat + roundUp4 (s.reg regA0).toNat > 0x80000000 then s.takeException (.syscallError 9#32)
  else
    { s.setReg regV0 s.heapTop with heapTop := s.heapTop + BitVec.ofNat 32 (roundUp4 (s.reg regA0).toNat) }.schedule .seq

/-- Service 10, exit (44_system.md R217). -/
def State.serviceExit (s : State) : State := s.schedule (.halt 0#32)

/-- The service table is closed: any other number is a `SyscallError` (44_system.md R210, R211). -/
def State.service (s : State) (n : Word) : State :=
  if n = 1#32 then s.servicePrintInt
  else if n = 4#32 then s.servicePrintString
  else if n = 5#32 then s.serviceReadInt
  else if n = 8#32 then s.serviceReadString
  else if n = 9#32 then s.serviceAllocate
  else if n = 10#32 then s.serviceExit
  else s.takeException (.syscallError n)

end Sys2Proof.Machine
end

