-- ==== Sys2Proof/Machine/System.lean ====
section
/-! DEFINITION. Syscall, break, the conditional traps, exception return and Coprocessor 0 access (44_system.md). -/

namespace Sys2Proof.Machine

/-- `syscall` (44_system.md R210): the service number is `x[2]`. -/
def execSyscall (s : State) : Result := .next (s.service (s.reg regV0))

/-- `break` (44_system.md R218). -/
def execBrk (code : BitVec 20) (s : State) : Result := .next (s.takeException (.breakpoint code))

/-- `teq` (44_system.md R219, R220). -/
def execTeq (rs rt : Reg) (code : BitVec 10) (s : State) : Result :=
  .next (s.trapIf (s.reg rs == s.reg rt) code)

/-- `tne` (44_system.md R219, R221). -/
def execTne (rs rt : Reg) (code : BitVec 10) (s : State) : Result :=
  .next (s.trapIf (s.reg rs != s.reg rt) code)

/-- `tge` (44_system.md R219, R222). -/
def execTge (rs rt : Reg) (code : BitVec 10) (s : State) : Result :=
  .next (s.trapIf (!ltSigned (s.reg rs) (s.reg rt)) code)

/-- `tgeu` (44_system.md R219, R223). -/
def execTgeu (rs rt : Reg) (code : BitVec 10) (s : State) : Result :=
  .next (s.trapIf (!ltUnsigned (s.reg rs) (s.reg rt)) code)

/-- `tlt` (44_system.md R219, R224). -/
def execTlt (rs rt : Reg) (code : BitVec 10) (s : State) : Result :=
  .next (s.trapIf (ltSigned (s.reg rs) (s.reg rt)) code)

/-- `tltu` (44_system.md R219, R225). -/
def execTltu (rs rt : Reg) (code : BitVec 10) (s : State) : Result :=
  .next (s.trapIf (ltUnsigned (s.reg rs) (s.reg rt)) code)

/-- `teqi` (44_system.md R219, R226): the trap's code is 0. -/
def execTeqi (rs : Reg) (imm : BitVec 16) (s : State) : Result :=
  .next (s.trapIf (s.reg rs == simm imm) 0#10)

/-- `tnei` (44_system.md R219, R227): the trap's code is 0. -/
def execTnei (rs : Reg) (imm : BitVec 16) (s : State) : Result :=
  .next (s.trapIf (s.reg rs != simm imm) 0#10)

/-- `tgei` (44_system.md R219, R228): the trap's code is 0. -/
def execTgei (rs : Reg) (imm : BitVec 16) (s : State) : Result :=
  .next (s.trapIf (!ltSigned (s.reg rs) (simm imm)) 0#10)

/-- `tgeiu` (44_system.md R219, R229): the trap's code is 0. -/
def execTgeiu (rs : Reg) (imm : BitVec 16) (s : State) : Result :=
  .next (s.trapIf (!ltUnsigned (s.reg rs) (simm imm)) 0#10)

/-- `tlti` (44_system.md R219, R230): the trap's code is 0. -/
def execTlti (rs : Reg) (imm : BitVec 16) (s : State) : Result :=
  .next (s.trapIf (ltSigned (s.reg rs) (simm imm)) 0#10)

/-- `tltiu` (44_system.md R219, R231): the trap's code is 0. -/
def execTltiu (rs : Reg) (imm : BitVec 16) (s : State) : Result :=
  .next (s.trapIf (ltUnsigned (s.reg rs) (simm imm)) 0#10)

/-- `eret` (44_system.md R232); refused in a delay slot (43_control.md R182). -/
def execEret (s : State) : Result := .next (s.controlTransfer s.returnFromException)

/-- `mfc0` (44_system.md R233). A number that names no register is an invalid opcode (10_state.md R27); no word decodes to
that form. DESIGN CHOICE (log 12). -/
def execMfc0 (rt : Reg) (rd : BitVec 5) (s : State) : Result :=
  .next (match s.cp0 rd with
    | some v => s.retire rt v
    | none => s.takeException .invalidOpcode)

/-- `mtc0` (44_system.md R234): all 32 bits, no mask. A number that names no register is an invalid opcode (10_state.md R27);
no word decodes to that form. DESIGN CHOICE (log 12). -/
def execMtc0 (rt : Reg) (rd : BitVec 5) (s : State) : Result :=
  .next (match s.setCp0 rd (s.reg rt) with
    | some t => t.schedule .seq
    | none => s.takeException .invalidOpcode)

end Sys2Proof.Machine
end

