-- ==== Sys2Proof/Machine/RunControl.lean ====
section
/-! DEFINITION. The host's commands and queries (00_scope.md R8, R9; 70_reset_and_hazards.md R280 to R290). -/

namespace Sys2Proof.Machine

/-! ### Load and reset -/

/-- Install an image (70_reset_and_hazards.md R281, R282): memory from the image, every register and bookkeeping item at its
reset value (10_state.md R42). Breakpoints are kept, and so are the model's own fields (logs 2 to 6, 8). -/
def State.install (s : State) (img : Image) : State :=
  { s with
    gpr := resetGpr
    pc := img.entry
    pend := none
    hi := 0#32
    lo := 0#32
    badVAddr := 0#32
    status := 0x0000FF11#32
    cause := 0#32
    epc := 0#32
    llBit := false
    mem := img.memory
    runState := .loaded
    faultInfo := none
    skipBreak := false
    heapTop := 0x10040000#32
    exitCode := none
    image := some img }

/-! ### Breakpoints (70_reset_and_hazards.md R288) -/

/-- Add an address to a strictly rising list. -/
def insertAddr (a : Word) : List Word → List Word
  | [] => [a]
  | b :: rest => if a.toNat < b.toNat then a :: b :: rest else if a = b then b :: rest else b :: insertAddr a rest

/-- Remove an address. -/
def removeAddr (a : Word) (l : List Word) : List Word := l.filter (fun b => b != a)

/-- Whether the debugger's breakpoint at pc fires (70_reset_and_hazards.md R289). -/
def State.breakHere (s : State) : Bool := s.breakpoints.contains s.pc && !s.skipBreak

/-! ### Commands -/

/-- A command's effect, none when it is refused (70_reset_and_hazards.md R280). For `step` it is the part before the
instruction (R283). -/
def State.command (s : State) : Command → Option State
  | .load img =>
    match s.runState with
    | .idle | .loaded => if img.valid then some (s.install img) else none
    | .running | .paused | .halted | .faulted => none
  | .reset =>
    match s.runState with
    | .idle => none
    | .loaded | .running | .paused | .halted | .faulted => s.image.map s.install
  | .run =>
    match s.runState with
    | .loaded => some { s with runState := .running }
    | .paused => some { s with runState := .running, skipBreak := true }
    | .idle | .running | .halted | .faulted => none
  | .step =>
    match s.runState with
    | .loaded | .paused => some { s with skipBreak := false }
    | .idle | .running | .halted | .faulted => none
  | .pause | .stop =>
    match s.runState with
    | .running => some { s with runState := .paused }
    | .idle | .loaded | .paused | .halted | .faulted => none
  | .setBreakpoint a => some { s with breakpoints := insertAddr a s.breakpoints }
  | .clearBreakpoint a => some { s with breakpoints := removeAddr a s.breakpoints }

/-- The run state after the one instruction of `step()` (70_reset_and_hazards.md R283). -/
def State.endStep (s : State) : State :=
  match s.runState with
  | .halted | .faulted => s
  | .idle | .loaded | .running | .paused => { s with runState := .paused }

/-! ### Queries (70_reset_and_hazards.md R290); none is an answer refused -/

/-- The states in which registers and memory are inspectable (70_reset_and_hazards.md R290). -/
def State.inspectable (s : State) : Bool :=
  match s.runState with
  | .loaded | .paused | .halted | .faulted => true
  | .idle | .running => false

/-- `getState()` (70_reset_and_hazards.md R290). -/
def State.getState (s : State) : RunState := s.runState

/-- The register an index names (70_reset_and_hazards.md R290). -/
def State.indexedRegister (s : State) (index : Nat) : Option Word :=
  if index < 32 then some (s.reg (BitVec.ofNat 5 index))
  else if index = 32 then some s.pc
  else if index = 33 then some s.hi
  else if index = 34 then some s.lo
  else if index = 35 then some s.badVAddr
  else if index = 36 then some s.status
  else if index = 37 then some s.cause
  else if index = 38 then some s.epc
  else none

/-- `readRegister(index)` (70_reset_and_hazards.md R290). -/
def State.readRegister (s : State) (index : Nat) : Option Word := if s.inspectable then s.indexedRegister index else none

/-- The addresses of an access. -/
def accessAddrs (a : Word) (w : Width) : List Word := (List.range (widthBytes w)).map (fun i => a + BitVec.ofNat 32 i)

/-- `readMemory(address, width)` (20_memory.md R69, 70_reset_and_hazards.md R290): no alignment, permission or privilege
check. -/
def State.readMemory (s : State) (a : Word) (w : Width) : Option Word :=
  if s.inspectable && (accessAddrs a w).all (fun b => segMapped (segmentOf b)) then some (Memory.load s.mem a w) else none

/-- `getFaultInfo()` (70_reset_and_hazards.md R290). -/
def State.getFaultInfo (s : State) : Option FaultInfo :=
  match s.runState with
  | .faulted => s.faultInfo
  | .idle | .loaded | .running | .paused | .halted => none

end Sys2Proof.Machine
end

