-- ==== Sys2Proof/Machine/Cycle.lean ====
section
/-! DEFINITION. Fetch, the instruction step and the run loop (20_memory.md R59, 43_control.md R180,
70_reset_and_hazards.md R280 to R289). -/

namespace Sys2Proof.Machine

/-- What a fetch gives (20_memory.md R59). -/
inductive Fetched where
  /-- An instruction word. -/
  | word (w : Word)
  /-- An address error. -/
  | exception (e : Exc)
  /-- The end of the run, `FETCH_EMPTY` = `Halt`. -/
  | endOfRun
deriving DecidableEq, Repr

/-- `Fetch(addr)` (20_memory.md R59). -/
def State.fetch (s : State) (a : Word) : Fetched :=
  if s.check a .word .fetch then
    if s.imageDefines a then .word (Memory.load s.mem a .word)
    else
      match s.cfg.fetchEmpty with
      | .zeroWord => .word 0#32
      | .halt => .endOfRun
  else .exception (.addressErrorFetch a)

/-- `Step()` (43_control.md R180). The delay-slot check (R182) is in each control transfer's meaning. -/
def State.instrStep (s : State) : Result :=
  match s.fetch s.pc with
  | .exception e => .next (s.takeException e)
  | .endOfRun => .next (s.schedule (.halt 0#32))
  | .word w =>
    match decode w with
    | .error _ => .next (s.takeException .invalidOpcode)
    | .ok i => exec i s

/-- Change the next state of an answer. -/
def mapNext (f : State → State) : Result → Result
  | .next t => .next (f t)
  | .fault r => .fault r
  | .refused r => .refused r

/-- One step of the block: take the oldest waiting command (70_reset_and_hazards.md R280), or else one iteration of the run
loop (R284). A refused command changes nothing. -/
def State.cycle (s : State) : Result :=
  match s.commands with
  | c :: rest =>
    match { s with commands := rest }.command c with
    | none => .next { s with commands := rest }
    | some t =>
      match c with
      | .step => mapNext State.endStep t.instrStep
      | .load _ | .reset | .run | .pause | .stop | .setBreakpoint _ | .clearBreakpoint _ => .next t
  | [] =>
    match s.runState with
    | .running =>
      if s.breakHere then .next { s with runState := .paused } else { s with skipBreak := false }.instrStep
    | .idle | .loaded | .paused => .fault .awaitingCommand
    | .halted => .fault .halted
    | .faulted => .fault .faulted

/-- The image with the text word at `a` defined as `w`, the image's other words kept. -/
def imageWith (img : Option Image) (a w : Word) : Image :=
  match img with
  | none => { text := [(a, w)], data := [], entry := a, symbols := [] }
  | some i => { i with text := (a, w) :: i.text.filter (fun p => p.1 != a) }

/-- Where `placeWord` puts a word: pc, or the base of the text segment when nothing can be fetched at pc. -/
def State.fetchableAddr (s : State) : Word := if s.check s.pc .word .fetch then s.pc else 0x00400000#32

/-- The state in which the next step fetches and runs the word `w`: it stands for the host's `load` of an image that defines
the word, and `run` (log 11). -/
def State.placeWord (s : State) (w : Word) : State :=
  { s with
    pc := s.fetchableAddr
    image := some (imageWith s.image s.fetchableAddr w)
    mem := Memory.store s.mem s.fetchableAddr .word w
    runState := .running
    commands := []
    skipBreak := s.skipBreak || s.breakpoints.contains s.fetchableAddr }

end Sys2Proof.Machine
end

