-- ==== Sys2Proof/Machine/Step.lean ====
section
/-! DEFINITION. The step of the machine, and the placing of one instruction word. -/

namespace Sys2Proof.Machine

/-- One step of the block (43_control.md R180, 70_reset_and_hazards.md R280, R284). -/
def step (s : State) : Host.Outcome State Fault Refusal := s.cycle

/-- `s` with an instruction of the opcode table stored where `step` fetches, the image and the run state set so that the next
step runs it (log 11). -/
def State.withFetchWord (s : State) (nbits w : Nat) : State := s.placeWord (BitVec.ofNat 32 (w % 2 ^ nbits))

end Sys2Proof.Machine
end

