-- ==== Sys2Proof/Safety.lean ====
section
/-! DEFINITION. The terms claims use: what an instruction leaves unchanged, what taking an exception does, seen bit by bit
and byte by byte, and the invariant of a safe run. -/

namespace Sys2Proof

/-! ### Instructions -/

/-- The control-transfer instructions (43_control.md R182). -/
def Instr.isControlTransfer : Instr → Bool
  | .beq _ _ _ | .bne _ _ _ | .blez _ _ | .bgtz _ _ | .bltz _ _ | .bgez _ _ | .bltzal _ _ | .bgezal _ _ => true
  | .j _ | .jal _ | .jr _ | .jalr _ _ | .eret => true
  | _ => false

/-- `mtc0`, the one instruction that writes a Coprocessor 0 register outright (44_system.md R234). -/
def Instr.isMtc0 : Instr → Bool
  | .mtc0 _ _ => true
  | _ => false

/-- The instructions that write LLbit: `ll`, `sc` and `eret` (10_state.md R32). -/
def Instr.writesLink : Instr → Bool
  | .ll _ _ _ | .sc _ _ _ | .eret => true
  | _ => false

end Sys2Proof

namespace Sys2Proof.Machine

/-! ### Completion -/

/-- `exec i s` answers a next state with the property `P`. -/
def Completes (i : Instr) (s : State) (P : State → Prop) : Prop := ∃ t, exec i s = .next t ∧ P t

/-- The word decodes to the instruction, and the instruction completes with the property `P`. -/
def Runs (w : Word) (i : Instr) (s : State) (P : State → Prop) : Prop := decode w = .ok i ∧ Completes i s P

/-- The word decodes to no instruction (30_encoding.md R84 to R86). -/
def Refused (w : Word) : Prop := decode w = .error (.invalidOpcode w)

/-! ### What is unchanged -/

/-- Every general register is unchanged. -/
def SameRegs (s t : State) : Prop := ∀ r : Reg, t.reg r = s.reg r

/-- Register `rd` holds `v` (x[0] discards it, 10_state.md R21) and every other general register is unchanged. -/
def RegWritten (s t : State) (rd : Reg) (v : Word) : Prop :=
  ∀ r : Reg, t.reg r = if r = rd ∧ rd ≠ 0#5 then v else s.reg r

/-- HI and LO are unchanged. -/
def SameHiLo (s t : State) : Prop := t.hi = s.hi ∧ t.lo = s.lo

/-- The four Coprocessor 0 registers are unchanged. -/
def SameCp0 (s t : State) : Prop :=
  t.badVAddr = s.badVAddr ∧ t.status = s.status ∧ t.cause = s.cause ∧ t.epc = s.epc

/-- Every byte of memory reads as before. -/
def SameBytes (s t : State) : Prop := ∀ a : Word, Memory.byteAt t.mem a = Memory.byteAt s.mem a

/-- The bytes at `a`, `a + 1`, … are those of the list, and every other byte reads as before. -/
def BytesWritten (s t : State) (a : Word) (bytes : List Byte) : Prop :=
  (∀ (i : Nat) (b : Byte), bytes[i]? = some b → Memory.byteAt t.mem (a + BitVec.ofNat 32 i) = b) ∧
  (∀ x : Word, (∀ i < bytes.length, x ≠ a + BitVec.ofNat 32 i) → Memory.byteAt t.mem x = Memory.byteAt s.mem x)

/-- The state the host works with, and the parameters, apart from `runState`, `faultInfo` and `exitCode`. -/
def SameHost (s t : State) : Prop :=
  t.breakpoints = s.breakpoints ∧ t.skipBreak = s.skipBreak ∧ t.image = s.image ∧ t.commands = s.commands ∧ t.cfg = s.cfg

/-- The run state and what goes with it are unchanged. -/
def SameRun (s t : State) : Prop :=
  t.runState = s.runState ∧ t.faultInfo = s.faultInfo ∧ t.exitCode = s.exitCode

/-- The console's record and the waiting answers are unchanged. -/
def SameConsole (s t : State) : Prop :=
  t.consoleOut = s.consoleOut ∧ t.consoleInts = s.consoleInts ∧ t.consoleStrs = s.consoleStrs

/-- Everything but the registers, memory, HI, LO, CP0, pc, `pend` and LLbit is unchanged. -/
def SameRest (s t : State) : Prop :=
  SameHost s t ∧ SameRun s t ∧ SameConsole s t ∧ t.heapTop = s.heapTop ∧ t.drawCount = s.drawCount

/-! ### Where control goes -/

/-- The outcome `Seq` (43_control.md R181): to the next instruction, or from a delay slot to the pending target. -/
def Advanced (s t : State) : Prop :=
  t.pend = none ∧ (s.pend = none → t.pc = s.pc + 4) ∧ (∀ p, s.pend = some p → t.pc = p.target)

/-- The outcome `Branch(T)` (43_control.md R181): to the delay slot, with the transfer pending. -/
def Transferring (s t : State) (target : Word) : Prop :=
  t.pc = s.pc + 4 ∧ t.pend = some { target := target, branch := s.pc }

/-! ### Effects -/

/-- The one effect is a register write; then `Seq`. -/
def RegEffect (s t : State) (rd : Reg) (v : Word) : Prop :=
  RegWritten s t rd v ∧ SameHiLo s t ∧ SameCp0 s t ∧ SameBytes s t ∧ t.llBit = s.llBit ∧ SameRest s t ∧ Advanced s t

/-- No effect but `Seq`. -/
def NoEffect (s t : State) : Prop :=
  SameRegs s t ∧ SameHiLo s t ∧ SameCp0 s t ∧ SameBytes s t ∧ t.llBit = s.llBit ∧ SameRest s t ∧ Advanced s t

/-- The one effect is on HI and LO, which have the property `P`; then `Seq`. -/
def HiLoEffect (s t : State) (P : Word → Word → Prop) : Prop :=
  SameRegs s t ∧ P t.hi t.lo ∧ SameCp0 s t ∧ SameBytes s t ∧ t.llBit = s.llBit ∧ SameRest s t ∧ Advanced s t

/-- The one effect is a store of bytes at `a`; then `Seq`. -/
def StoreEffect (s t : State) (a : Word) (bytes : List Byte) : Prop :=
  SameRegs s t ∧ SameHiLo s t ∧ SameCp0 s t ∧ BytesWritten s t a bytes ∧ t.llBit = s.llBit ∧ SameRest s t ∧ Advanced s t

/-- The one effect is a pending transfer. -/
def TransferEffect (s t : State) (target : Word) : Prop :=
  SameRegs s t ∧ SameHiLo s t ∧ SameCp0 s t ∧ SameBytes s t ∧ t.llBit = s.llBit ∧ SameRest s t ∧ Transferring s t target

/-- A link register write and a pending transfer. -/
def LinkEffect (s t : State) (rd : Reg) (target : Word) : Prop :=
  RegWritten s t rd (s.pc + 8) ∧ SameHiLo s t ∧ SameCp0 s t ∧ SameBytes s t ∧ t.llBit = s.llBit ∧ SameRest s t ∧
    Transferring s t target

/-! ### Exceptions -/

/-- The Coprocessor 0 writes of the exception process, bit by bit (60_exceptions.md R243): `code` in `Cause` 6:2, BadVAddr
for an address error, EPC and `Cause` 31 when `EXL` was 0, `EXL` set, every other bit of `Status` and `Cause` as it was, and
no pending transfer. -/
def Recorded (s t : State) (code : BitVec 5) (bad : Option Word) : Prop :=
  t.badVAddr = bad.getD s.badVAddr ∧
  t.cause.extractLsb' 2 5 = code ∧
  (s.exl = false → t.cause.getLsbD 31 = s.pend.isSome) ∧
  (s.exl = false → s.pend = none → t.epc = s.pc) ∧
  (∀ p, s.exl = false → s.pend = some p → t.epc = p.branch) ∧
  (s.exl = true → t.epc = s.epc ∧ t.cause.getLsbD 31 = s.cause.getLsbD 31) ∧
  (∀ i : Nat, i < 2 ∨ 7 ≤ i ∧ i ≤ 30 → t.cause.getLsbD i = s.cause.getLsbD i) ∧
  (∀ i : Nat, t.status.getLsbD i = (s.status.getLsbD i || decide (i = 1))) ∧
  t.pend = none

/-- What no exception changes (60_exceptions.md R241). -/
def NotTouched (s t : State) : Prop :=
  SameRegs s t ∧ SameHiLo s t ∧ SameBytes s t ∧ t.llBit = s.llBit ∧ t.heapTop = s.heapTop ∧ SameConsole s t ∧ SameHost s t ∧
    t.exitCode = s.exitCode ∧ t.drawCount = s.drawCount

/-- The run ends in `Faulted` at the instruction's address (60_exceptions.md R246). -/
def EndsFaulted (s t : State) (reason : FaultReason) (kind : ErrorKind) (code : BitVec 5) (bad : Option Word) : Prop :=
  Recorded s t code bad ∧ NotTouched s t ∧ t.pc = s.pc ∧ t.runState = .faulted ∧
  t.faultInfo = some
    { addr := s.pc, reason := reason, kind := kind, excCode := code, badAddr := bad, snapshot := t.snapshot }

/-- The exception is delivered to the handler (60_exceptions.md R245). -/
def Delivered (s t : State) (code : BitVec 5) : Prop :=
  Recorded s t code none ∧ NotTouched s t ∧ t.pc = 0x80000180#32 ∧ t.runState = s.runState ∧ t.faultInfo = s.faultInfo

/-- A deliverable exception (60_exceptions.md R244): delivered when a handler is installed and `EXL` was 0, else fatal. -/
def Trapped (s t : State) (code : BitVec 5) (reason : FaultReason) : Prop :=
  (s.exl = false → s.handlerInstalled = true → Delivered s t code) ∧
  (s.exl = false → s.handlerInstalled = false → EndsFaulted s t reason .unhandledException code none) ∧
  (s.exl = true → EndsFaulted s t .nestedException .unhandledException code none)

/-! ### Results with a condition -/

/-- A trapping add or subtract with the exact result `v`: the result when it is a signed 32-bit number, else the fatal
`ArithmeticOverflow` (40_arith_logic.md R100, R101). -/
def ChecksOverflow (w : Word) (i : Instr) (s : State) (rd : Reg) (v : Int) : Prop :=
  (-(2 ^ 31) ≤ v ∧ v < 2 ^ 31 → Runs w i s (fun t => RegEffect s t rd (BitVec.ofInt 32 v))) ∧
  (¬(-(2 ^ 31) ≤ v ∧ v < 2 ^ 31) → Runs w i s (fun t => EndsFaulted s t .arithmeticOverflow .arithmeticFault 12#5 none))

/-- A load that has the effect `P` when the access to `chk` is permitted, else the fatal `AddressErrorLoad` of `a`
(20_memory.md R57, R60). -/
def ChecksLoad (w : Word) (i : Instr) (s : State) (chk : Word) (n : Width) (a : Word) (P : State → Prop) : Prop :=
  (s.check chk n .load = true → Runs w i s P) ∧
  (s.check chk n .load = false →
    Runs w i s (fun t => EndsFaulted s t .addressErrorLoad .addressError 4#5 (some a)))

/-- A store that has the effect `P` when the access to `chk` is permitted, else the fatal `AddressErrorStore` of `a`
(20_memory.md R58, R60). -/
def ChecksStore (w : Word) (i : Instr) (s : State) (chk : Word) (n : Width) (a : Word) (P : State → Prop) : Prop :=
  (s.check chk n .store = true → Runs w i s P) ∧
  (s.check chk n .store = false →
    Runs w i s (fun t => EndsFaulted s t .addressErrorStore .addressError 5#5 (some a)))

/-- A conditional trap: the exception when the condition holds, else nothing but `Seq` (44_system.md R219). -/
def ChecksTrap (w : Word) (i : Instr) (s : State) (cond : Prop) : Prop :=
  (cond → Runs w i s (fun t => Trapped s t 13#5 .unhandledTrap)) ∧ (¬cond → Runs w i s (fun t => NoEffect s t))

/-- A conditional branch outside a delay slot: to `pc + 4 + 4 * imm` when the condition holds, else to `pc + 8`, in both
cases after the delay slot (43_control.md R183, R187). -/
def BranchesTo (w : Word) (i : Instr) (s : State) (imm : BitVec 16) (cond : Prop) : Prop :=
  (cond → Runs w i s (fun t => TransferEffect s t (BitVec.ofInt 32 (s.pc.toNat + 4 + 4 * imm.toInt)))) ∧
  (¬cond → Runs w i s (fun t => TransferEffect s t (s.pc + 8)))

/-- As `BranchesTo`, and the link register x[31] is written in both cases (43_control.md R185). -/
def BranchesLinking (w : Word) (i : Instr) (s : State) (imm : BitVec 16) (cond : Prop) : Prop :=
  (cond → Runs w i s (fun t => LinkEffect s t 31#5 (BitVec.ofInt 32 (s.pc.toNat + 4 + 4 * imm.toInt)))) ∧
  (¬cond → Runs w i s (fun t => LinkEffect s t 31#5 (s.pc + 8)))

/-! ### Other effects -/

/-- HI and LO are the two free values given and one draw is used up; then `Seq` (00_scope.md R16; log 6). -/
def DrawnHiLo (s t : State) (hi lo : Word) : Prop :=
  t.hi = hi ∧ t.lo = lo ∧ SameCp0 s t ∧ SameBytes s t ∧ t.llBit = s.llBit ∧ SameHost s t ∧ SameRun s t ∧ SameConsole s t ∧
    t.heapTop = s.heapTop ∧ t.drawCount = s.drawCount + 1 ∧ Advanced s t

/-- The one effect is on LLbit, which becomes `b`, register `rd`, which becomes `v`, and the bytes at `a`; then `Seq`
(42_loadstore.md R173, R174). -/
def LinkedEffect (s t : State) (b : Bool) (rd : Reg) (v : Word) (a : Word) (bytes : List Byte) : Prop :=
  RegWritten s t rd v ∧ SameHiLo s t ∧ SameCp0 s t ∧ BytesWritten s t a bytes ∧ t.llBit = b ∧ SameRest s t ∧ Advanced s t

/-- Register `n` of Coprocessor 0 holds `v` and the others are unchanged (44_system.md R234). -/
def Cp0Written (s t : State) (n : BitVec 5) (v : Word) : Prop :=
  t.badVAddr = (if n = 8#5 then v else s.badVAddr) ∧ t.status = (if n = 12#5 then v else s.status) ∧
  t.cause = (if n = 13#5 then v else s.cause) ∧ t.epc = (if n = 14#5 then v else s.epc)

/-- The one effect is a Coprocessor 0 register write; then `Seq`. -/
def Cp0Effect (s t : State) (n : BitVec 5) (v : Word) : Prop :=
  SameRegs s t ∧ SameHiLo s t ∧ Cp0Written s t n v ∧ SameBytes s t ∧ t.llBit = s.llBit ∧ SameRest s t ∧ Advanced s t

/-- The effect of `eret` (44_system.md R232): `EXL` and LLbit clear, to EPC with no delay slot, nothing else. -/
def ReturnEffect (s t : State) : Prop :=
  SameRegs s t ∧ SameHiLo s t ∧ t.badVAddr = s.badVAddr ∧ t.cause = s.cause ∧ t.epc = s.epc ∧
  (∀ i : Nat, t.status.getLsbD i = (s.status.getLsbD i && decide (i ≠ 1))) ∧
  SameBytes s t ∧ t.llBit = false ∧ SameRest s t ∧ t.pc = s.epc ∧ t.pend = none

/-- The end of a run in `Halted` (43_control.md R181): nothing else changes but that a pending transfer is discarded. -/
def HaltEffect (s t : State) (code : Word) : Prop :=
  SameRegs s t ∧ SameHiLo s t ∧ SameCp0 s t ∧ SameBytes s t ∧ t.llBit = s.llBit ∧ SameHost s t ∧ SameConsole s t ∧
  t.heapTop = s.heapTop ∧ t.drawCount = s.drawCount ∧ t.faultInfo = s.faultInfo ∧ t.pc = s.pc ∧ t.pend = none ∧
  t.runState = .halted ∧ t.exitCode = some code

/-! ### Services -/

/-- The one effect is that bytes are sent to the console; then `Seq`. -/
def PrintEffect (s t : State) (bytes : List Byte) : Prop :=
  SameRegs s t ∧ SameHiLo s t ∧ SameCp0 s t ∧ SameBytes s t ∧ t.llBit = s.llBit ∧ SameHost s t ∧ SameRun s t ∧
  t.consoleOut = s.consoleOut ++ bytes ∧ t.consoleInts = s.consoleInts ∧ t.consoleStrs = s.consoleStrs ∧
  t.heapTop = s.heapTop ∧ t.drawCount = s.drawCount ∧ Advanced s t

/-- The one effect is that `$v0` is the old `heapTop` and `heapTop` is `top` (44_system.md R216); then `Seq`. -/
def AllocateEffect (s t : State) (top : Nat) : Prop :=
  RegWritten s t 2#5 s.heapTop ∧ SameHiLo s t ∧ SameCp0 s t ∧ SameBytes s t ∧ t.llBit = s.llBit ∧ SameHost s t ∧ SameRun s t ∧
  SameConsole s t ∧ t.heapTop.toNat = top ∧ t.drawCount = s.drawCount ∧ Advanced s t

/-- The bytes are the decimal text of a number: a minus sign for a negative one, then its digits with no leading zero and
nothing else (44_system.md R212). -/
def DecimalText (bytes : List Byte) (v : Int) : Prop :=
  ∃ digits : List Byte, bytes = (if v < 0 then [0x2D#8] else []) ++ digits ∧ digits ≠ [] ∧
    (∀ d ∈ digits, 0x30 ≤ d.toNat ∧ d.toNat ≤ 0x39) ∧
    (digits.length > 1 → digits.head? ≠ some 0x30#8) ∧
    digits.foldl (fun n d => 10 * n + (d.toNat - 0x30)) 0 = v.natAbs

/-- The host's answer to service 5 is `v`, and `s'` is the state after it is used up: the oldest one lined up, or with none
lined up a free value (log 4). -/
def AnswersInt (s : State) (v : Option Word) (s' : State) : Prop :=
  (∃ rest, s.consoleInts = v :: rest ∧ s' = { s with consoleInts := rest }) ∨
  (s.consoleInts = [] ∧ v = Config.consoleInt s.drawCount ∧ s' = { s with drawCount := s.drawCount + 1 })

/-- The host's answer to service 8 is `str`, and `s'` is the state after it is used up (log 4). -/
def AnswersStr (s : State) (str : List Byte) (s' : State) : Prop :=
  (∃ rest, s.consoleStrs = str :: rest ∧ s' = { s with consoleStrs := rest }) ∨
  (s.consoleStrs = [] ∧ str = Config.consoleStr s.drawCount ∧ s' = { s with drawCount := s.drawCount + 1 })

/-! ### Load and reset -/

/-- The address lies in the text or the kernel text segment (20_memory.md R52). -/
def InTextSegment (a : Word) : Prop :=
  0x00400000 ≤ a.toNat ∧ a.toNat ≤ 0x0FFFFFFF ∨ 0x80000000 ≤ a.toNat ∧ a.toNat ≤ 0x8FFFFFFF

/-- The address lies in the data or the kernel data segment (20_memory.md R52). -/
def InDataSegment (a : Word) : Prop :=
  0x10000000 ≤ a.toNat ∧ a.toNat ≤ 0x7FFFFFFF ∨ 0x90000000 ≤ a.toNat ∧ a.toNat ≤ 0xFFFEFFFF

/-- The image passes the validation of 70_reset_and_hazards.md R281. -/
def ImageOk (img : Image) : Prop :=
  (∀ p ∈ img.text, p.1.toNat % 4 = 0 ∧ InTextSegment p.1) ∧
  (∀ p ∈ img.data, InDataSegment p.1) ∧
  (img.text.map (fun p => p.1)).Nodup ∧ (img.data.map (fun p => p.1)).Nodup ∧
  img.entry.toNat % 4 = 0 ∧ InTextSegment img.entry

/-- Memory holds the image's text words little-endian, its data bytes, and zero everywhere else (20_memory.md R51). -/
def HoldsImage (m : Memory) (img : Image) : Prop :=
  (∀ p ∈ img.text, ∀ k < 4, Memory.byteAt m (p.1 + BitVec.ofNat 32 k) = p.2.extractLsb' (8 * k) 8) ∧
  (∀ p ∈ img.data, Memory.byteAt m p.1 = p.2) ∧
  (∀ a : Word, (∀ p ∈ img.text, ∀ k < 4, a ≠ p.1 + BitVec.ofNat 32 k) → (∀ p ∈ img.data, a ≠ p.1) → Memory.byteAt m a = 0#8)

/-- What load and reset leave (10_state.md R42, 70_reset_and_hazards.md R281, R282). -/
def Installed (s t : State) (img : Image) : Prop :=
  (∀ r : Reg, t.reg r = if r = 28#5 then 0x10008000#32 else if r = 29#5 then 0x7FFFEFFC#32 else 0#32) ∧
  t.pc = img.entry ∧ t.pend = none ∧ t.hi = 0#32 ∧ t.lo = 0#32 ∧ t.badVAddr = 0#32 ∧ t.status = 0x0000FF11#32 ∧
  t.cause = 0#32 ∧ t.epc = 0#32 ∧ t.llBit = false ∧ t.heapTop = 0x10040000#32 ∧ t.runState = .loaded ∧
  t.faultInfo = none ∧ t.exitCode = none ∧ t.skipBreak = false ∧ t.breakpoints = s.breakpoints ∧
  t.image = some img ∧ HoldsImage t.mem img

/-! ### The invariant of a run -/

/-- The bytes memory holds right after the retained image is installed; zero when there is none (20_memory.md R51). -/
def State.loadedByte (s : State) (a : Word) : Byte :=
  match s.image with
  | none => 0#8
  | some img => Memory.byteAt img.memory a

/-- No step changes a fetchable byte: the text segments hold the image's bytes (20_memory.md R67). -/
def State.TextIntact (s : State) : Prop := ∀ a : Word, isTextSegment a = true → Memory.byteAt s.mem a = s.loadedByte a

/-- Strictly rising addresses. -/
def strictlyRising : List Word → Bool
  | [] => true
  | [_] => true
  | a :: b :: rest => decide (a.toNat < b.toNat) && strictlyRising (b :: rest)

/-- What holds of the run-control state: each item is present exactly in its run state (10_state.md R35, R38, R39), the
retained image passed validation (70_reset_and_hazards.md R282), and in a terminal state nothing is pending. -/
def State.RunInv (s : State) : Prop :=
  (s.faultInfo.isSome = true ↔ s.runState = .faulted) ∧
  (s.exitCode.isSome = true ↔ s.runState = .halted) ∧
  (s.image = none ↔ s.runState = .idle) ∧
  (∀ img, s.image = some img → img.valid = true) ∧
  (∀ fi, s.faultInfo = some fi → fi.addr = s.pc ∧ fi.snapshot = s.snapshot) ∧
  (s.runState = .halted ∨ s.runState = .faulted → s.pend = none)

/-- The invariant of a run: memory and the breakpoint set in canonical form, fetchable bytes intact, the run-control state
consistent, a pending transfer only at the delay slot of its branch (10_state.md R25), and the heap's top a multiple of 4
inside the data segment's bounds (44_system.md R216). -/
def State.Inv (s : State) : Prop :=
  Memory.wf s.mem = true ∧ strictlyRising s.breakpoints = true ∧ s.TextIntact ∧ s.RunInv ∧
  (∀ p, s.pend = some p → s.pc = p.branch + 4) ∧
  (0x10040000 ≤ s.heapTop.toNat ∧ s.heapTop.toNat ≤ 0x80000000 ∧ s.heapTop.toNat % 4 = 0)

end Sys2Proof.Machine
end

