-- ==== Sys2Proof/Certificates/Slice0/Obligations.lean ====
section
/-! DEFINITION. The statements for the provers. Each docstring names the rules of spec/ it formalises. -/

open Sys2Proof Sys2Proof.Machine

/-! ### Encoding -/

/-- One word per family, written out bit by bit from its instruction's encoding line in 40_arith_logic.md to 44_system.md. -/
def Obligations.SampleWordsDecode : Prop :=
  decode 0b000000_01000_01001_01010_00000_100000#32 = .ok (.add 10 8 9) ∧
  decode 0b001000_01000_01010_1111111111111101#32 = .ok (.addi 10 8 0xFFFD) ∧
  decode 0b001111_00000_01010_0001000000000001#32 = .ok (.lui 10 0x1001) ∧
  decode 0b000000_00000_01000_01010_11111_000000#32 = .ok (.sll 10 8 31) ∧
  decode 0b000000_01001_01000_01010_00000_000111#32 = .ok (.srav 10 8 9) ∧
  decode 0b011100_01000_01010_01010_00000_100000#32 = .ok (.clz 10 8) ∧
  decode 0b000000_01000_01001_00000_00000_011010#32 = .ok (.div 8 9) ∧
  decode 0b000000_00000_00000_01010_00000_010010#32 = .ok (.mflo 10) ∧
  decode 0b011100_01000_01001_00000_00000_000100#32 = .ok (.msub 8 9) ∧
  decode 0b100010_01000_01001_1111111111111100#32 = .ok (.lwl 9 8 0xFFFC) ∧
  decode 0b111000_01000_01001_0000000000000100#32 = .ok (.sc 9 8 4) ∧
  decode 0b000100_01000_01001_0000000000000011#32 = .ok (.beq 8 9 3) ∧
  decode 0b000001_01000_10000_0000000000000011#32 = .ok (.bltzal 8 3) ∧
  decode 0b000010_00000100000000000000000000#32 = .ok (.j 0x100000) ∧
  decode 0b000000_01000_00000_11111_00000_001001#32 = .ok (.jalr 31 8) ∧
  decode 0b000000_00000000000000000001_001100#32 = .ok .syscall ∧
  decode 0b000000_00000000000000000111_001101#32 = .ok (.brk 7) ∧
  decode 0b000000_01000_01001_0000000011_110100#32 = .ok (.teq 8 9 3) ∧
  decode 0b000001_01000_01011_0000000000000101#32 = .ok (.tltiu 8 5) ∧
  decode 0b010000_1_0000000000000000000_011000#32 = .ok .eret ∧
  decode 0b010000_00000_11010_01101_00000000_000#32 = .ok (.mfc0 26 13) ∧
  decode 0b010000_00100_11010_01110_00000000_000#32 = .ok (.mtc0 26 14)

/-- 30_encoding.md R99: decoding an encoded well-formed instruction gives it back with every operand; words that differ only
in an ignored field decode to the same instruction, so the converse does not hold for those. -/
def Obligations.DecodeOfEncode : Prop :=
  (∀ i : Instr, i.wellFormed = true → decode (encode i) = .ok i) ∧
  (∀ code : BitVec 20, decode (codeType code 0x0C#6) = .ok .syscall) ∧
  (∀ rd rs rt : Reg, decode (rType 0x1C#6 rs rt rd 0#5 0x20#6) = .ok (.clz rd rs)) ∧
  (∀ rd rs rt : Reg, decode (rType 0x1C#6 rs rt rd 0#5 0x21#6) = .ok (.clo rd rs))

/-- 30_encoding.md R84, R85, R99: whatever decodes is well-formed, and but for the three instructions with an ignored field it
encodes back to the very word. -/
def Obligations.EncodeOfDecode : Prop :=
  ∀ (w : Word) (i : Instr), decode w = .ok i →
    i.wellFormed = true ∧ (i = .syscall ∨ (∃ rd rs, i = .clz rd rs ∨ i = .clo rd rs) ∨ encode i = w)

/-- 30_encoding.md R84 over the masks, matches and `extra` conditions of opcode_table.json: an instruction is decoded only from
a word of its row, and a word of some row decodes to an instruction of that row (the zero word to `nop`). -/
def Obligations.DecodeFollowsTheTable : Prop :=
  (∀ (w : Word) (i : Instr), decode w = .ok i → w &&& i.mask = i.matchBits ∧ i.extra w = true) ∧
  (∀ (w : Word) (i : Instr), w &&& i.mask = i.matchBits → i.extra w = true → w ≠ 0#32 →
    ∃ j : Instr, decode w = .ok j ∧ j.mask = i.mask ∧ j.matchBits = i.matchBits) ∧
  decode 0#32 = .ok .nop ∧
  (∀ w : Word, (∀ i : Instr, ¬(w &&& i.mask = i.matchBits ∧ i.extra w = true)) → decode w = .error (.invalidOpcode w))

/-- 30_encoding.md R86 to R91: the excluded and the unassigned encodings are refused. -/
def Obligations.ExcludedEncodingsRefused : Prop :=
  ∀ w : Word,
    (opOf w ∈ [0x11#6, 0x12#6, 0x13#6, 0x14#6, 0x15#6, 0x16#6, 0x17#6, 0x18#6, 0x19#6, 0x1A#6, 0x1B#6, 0x1D#6, 0x1E#6, 0x1F#6,
        0x27#6, 0x2C#6, 0x2D#6, 0x2F#6, 0x31#6, 0x32#6, 0x33#6, 0x34#6, 0x35#6, 0x36#6, 0x37#6, 0x39#6, 0x3A#6, 0x3B#6, 0x3C#6,
        0x3D#6, 0x3E#6, 0x3F#6] → Refused w) ∧
    (opOf w = 0x00#6 → functOf w ∈ [0x01#6, 0x05#6, 0x0E#6, 0x0F#6, 0x14#6, 0x15#6, 0x16#6, 0x17#6, 0x1C#6, 0x1D#6, 0x1E#6,
        0x1F#6, 0x28#6, 0x29#6, 0x2C#6, 0x2D#6, 0x2E#6, 0x2F#6, 0x35#6, 0x37#6] → Refused w) ∧
    (opOf w = 0x00#6 → 0x38 ≤ (functOf w).toNat → Refused w) ∧
    (opOf w = 0x01#6 → rtOf w ∈ [0x02#5, 0x03#5, 0x04#5, 0x05#5, 0x06#5, 0x07#5, 0x0D#5, 0x0F#5] →
        Refused w) ∧
    (opOf w = 0x01#6 → 0x12 ≤ (rtOf w).toNat → Refused w) ∧
    (opOf w = 0x1C#6 → functOf w ∉ [0x00#6, 0x01#6, 0x02#6, 0x04#6, 0x05#6, 0x20#6, 0x21#6] →
        Refused w) ∧
    (opOf w = 0x10#6 → rsOf w ∉ [0x00#5, 0x04#5, 0x10#5] → Refused w) ∧
    (opOf w = 0x10#6 → rsOf w = 0x10#5 → w ≠ 0x42000018#32 → Refused w) ∧
    (opOf w = 0x10#6 → rsOf w ∈ [0x00#5, 0x04#5] → (w.extractLsb' 0 11 ≠ 0#11 ∨ rdOf w ∉ [8#5, 12#5, 13#5, 14#5]) →
        Refused w)

/-- 30_encoding.md R85: a nonzero bit in a reserved-zero field is refused. -/
def Obligations.ReservedFieldsMustBeZero : Prop :=
  ∀ w : Word,
    (opOf w = 0x00#6 → functOf w ∈ [0x00#6, 0x02#6, 0x03#6] → rsOf w ≠ 0#5 → Refused w) ∧
    (opOf w = 0x0F#6 → rsOf w ≠ 0#5 → Refused w) ∧
    (opOf w = 0x00#6 → functOf w ∈ [0x04#6, 0x06#6, 0x07#6, 0x0A#6, 0x0B#6, 0x20#6, 0x21#6, 0x22#6, 0x23#6, 0x24#6, 0x25#6,
        0x26#6, 0x27#6, 0x2A#6, 0x2B#6, 0x09#6] → saOf w ≠ 0#5 → Refused w) ∧
    (opOf w = 0x1C#6 → functOf w ∈ [0x02#6, 0x20#6, 0x21#6] → saOf w ≠ 0#5 → Refused w) ∧
    (opOf w = 0x00#6 → functOf w ∈ [0x08#6, 0x11#6, 0x13#6] → (rtOf w ≠ 0#5 ∨ rdOf w ≠ 0#5 ∨ saOf w ≠ 0#5) →
        Refused w) ∧
    (opOf w = 0x00#6 → functOf w ∈ [0x10#6, 0x12#6] → (rsOf w ≠ 0#5 ∨ rtOf w ≠ 0#5 ∨ saOf w ≠ 0#5) →
        Refused w) ∧
    (opOf w = 0x00#6 → functOf w ∈ [0x18#6, 0x19#6, 0x1A#6, 0x1B#6] → (rdOf w ≠ 0#5 ∨ saOf w ≠ 0#5) →
        Refused w) ∧
    (opOf w = 0x1C#6 → functOf w ∈ [0x00#6, 0x01#6, 0x04#6, 0x05#6] → (rdOf w ≠ 0#5 ∨ saOf w ≠ 0#5) →
        Refused w) ∧
    (opOf w = 0x00#6 → functOf w = 0x09#6 → rtOf w ≠ 0#5 → Refused w) ∧
    (opOf w ∈ [0x06#6, 0x07#6] → rtOf w ≠ 0#5 → Refused w) ∧
    (opOf w = 0x10#6 → rsOf w ∈ [0x00#5, 0x04#5] → w.extractLsb' 0 11 ≠ 0#11 → Refused w)

/-! ### The step -/

/-- 43_control.md R180, 70_reset_and_hazards.md R284: while `Running`, with no command waiting and no breakpoint firing, the
bytes at pc of a text word of the image that may be fetched and decodes to `i` make `step` the `exec` of `i`; the step adds
only that `skipBreak` is cleared. -/
def Obligations.StepRunsDecodedInstruction : Prop :=
  ∀ (s : State) (i : Instr),
    s.commands = [] → s.runState = .running → (s.pc ∈ s.breakpoints → s.skipBreak = true) →
    s.check s.pc .word .fetch = true → s.imageDefines s.pc = true →
    decode (wordOfBytes (Memory.byteAt s.mem s.pc) (Memory.byteAt s.mem (s.pc + 1)) (Memory.byteAt s.mem (s.pc + 2))
      (Memory.byteAt s.mem (s.pc + 3))) = .ok i →
    step s = exec i { s with skipBreak := false }

/-- 20_memory.md R59: a failing fetch raises `AddressErrorFetch` of pc; a text word the image does not define runs as `nop`
under `ZeroWord`, and under `Halt` ends the run with exit code 0; any other fetch gives the little-endian word at pc. -/
def Obligations.FetchRule : Prop :=
  ∀ s : State,
    (s.check s.pc .word .fetch = false →
      ∃ t, s.instrStep = .next t ∧ EndsFaulted s t .addressErrorFetch .addressError 4#5 (some s.pc)) ∧
    (s.check s.pc .word .fetch = true → s.imageDefines s.pc = false → s.cfg.fetchEmpty = .zeroWord →
      ∃ t, s.instrStep = .next t ∧ NoEffect s t) ∧
    (s.check s.pc .word .fetch = true → s.imageDefines s.pc = false → s.cfg.fetchEmpty = .halt →
      ∃ t, s.instrStep = .next t ∧ HaltEffect s t 0#32) ∧
    (s.check s.pc .word .fetch = true → s.imageDefines s.pc = true → ∃ w : Word, s.fetch s.pc = .word w ∧
      ∀ k < 4, w.extractLsb' (8 * k) 8 = Memory.byteAt s.mem (s.pc + BitVec.ofNat 32 k))

/-- 30_encoding.md R84, 60_exceptions.md R240: a fetched word that no row matches ends the run with `InvalidOpcode` before any
effect. -/
def Obligations.InvalidOpcodeEndsTheRun : Prop :=
  ∀ (s : State) (w : Word), s.fetch s.pc = .word w → decode w = .error (.invalidOpcode w) →
    ∃ t, s.instrStep = .next t ∧ EndsFaulted s t .invalidOpcode .invalidOpcodeError 10#5 none

/-! ### Arithmetic, logic, shift, compare and move (40_arith_logic.md) -/

/-- 40_arith_logic.md R103, R105, R107: the sum or difference modulo 2^32, never an exception. -/
def Obligations.WrappingAddAndSubtract : Prop :=
  ∀ (s : State) (rd rs rt : Reg) (imm : BitVec 16),
    Runs (rType 0#6 rs rt rd 0#5 0x21#6) (.addu rd rs rt) s
      (fun t => RegEffect s t rd (BitVec.ofNat 32 ((s.reg rs).toNat + (s.reg rt).toNat))) ∧
    Runs (rType 0#6 rs rt rd 0#5 0x23#6) (.subu rd rs rt) s
      (fun t => RegEffect s t rd (BitVec.ofInt 32 ((s.reg rs).toNat - (s.reg rt).toNat))) ∧
    Runs (iType 0x09#6 rs rt imm) (.addiu rt rs imm) s
      (fun t => RegEffect s t rt (BitVec.ofInt 32 ((s.reg rs).toNat + imm.toInt)))

/-- 40_arith_logic.md R102, R104, R106: the exact signed result when it is a 32-bit number, else the fatal
`ArithmeticOverflow` with nothing written. -/
def Obligations.TrappingAddAndSubtract : Prop :=
  ∀ (s : State) (rd rs rt : Reg) (imm : BitVec 16),
    ChecksOverflow (rType 0#6 rs rt rd 0#5 0x20#6) (.add rd rs rt) s rd ((s.reg rs).toInt + (s.reg rt).toInt) ∧
    ChecksOverflow (rType 0#6 rs rt rd 0#5 0x22#6) (.sub rd rs rt) s rd ((s.reg rs).toInt - (s.reg rt).toInt) ∧
    ChecksOverflow (iType 0x08#6 rs rt imm) (.addi rt rs imm) s rt ((s.reg rs).toInt + imm.toInt)

/-- 40_arith_logic.md R108 to R115; `lui` with a nonzero rs field is refused. -/
def Obligations.LogicalResults : Prop :=
  ∀ (s : State) (rd rs rt : Reg) (imm : BitVec 16),
    Runs (rType 0#6 rs rt rd 0#5 0x24#6) (.and rd rs rt) s (fun t => RegEffect s t rd (s.reg rs &&& s.reg rt)) ∧
    Runs (rType 0#6 rs rt rd 0#5 0x25#6) (.or rd rs rt) s (fun t => RegEffect s t rd (s.reg rs ||| s.reg rt)) ∧
    Runs (rType 0#6 rs rt rd 0#5 0x26#6) (.xor rd rs rt) s (fun t => RegEffect s t rd (s.reg rs ^^^ s.reg rt)) ∧
    Runs (rType 0#6 rs rt rd 0#5 0x27#6) (.nor rd rs rt) s (fun t => RegEffect s t rd (~~~(s.reg rs ||| s.reg rt))) ∧
    Runs (iType 0x0C#6 rs rt imm) (.andi rt rs imm) s
      (fun t => RegEffect s t rt (s.reg rs &&& BitVec.ofNat 32 imm.toNat)) ∧
    Runs (iType 0x0D#6 rs rt imm) (.ori rt rs imm) s
      (fun t => RegEffect s t rt (s.reg rs ||| BitVec.ofNat 32 imm.toNat)) ∧
    Runs (iType 0x0E#6 rs rt imm) (.xori rt rs imm) s
      (fun t => RegEffect s t rt (s.reg rs ^^^ BitVec.ofNat 32 imm.toNat)) ∧
    Runs (iType 0x0F#6 0#5 rt imm) (.lui rt imm) s (fun t => RegEffect s t rt (BitVec.ofNat 32 (imm.toNat * 2 ^ 16))) ∧
    (rs ≠ 0#5 → Refused (iType 0x0F#6 rs rt imm))

/-- 40_arith_logic.md R116 to R119. -/
def Obligations.SetOnLessThanResults : Prop :=
  ∀ (s : State) (rd rs rt : Reg) (imm : BitVec 16),
    Runs (rType 0#6 rs rt rd 0#5 0x2A#6) (.slt rd rs rt) s
      (fun t => RegEffect s t rd (if (s.reg rs).toInt < (s.reg rt).toInt then 1#32 else 0#32)) ∧
    Runs (rType 0#6 rs rt rd 0#5 0x2B#6) (.sltu rd rs rt) s
      (fun t => RegEffect s t rd (if (s.reg rs).toNat < (s.reg rt).toNat then 1#32 else 0#32)) ∧
    Runs (iType 0x0A#6 rs rt imm) (.slti rt rs imm) s
      (fun t => RegEffect s t rt (if (s.reg rs).toInt < imm.toInt then 1#32 else 0#32)) ∧
    Runs (iType 0x0B#6 rs rt imm) (.sltiu rt rs imm) s
      (fun t => RegEffect s t rt (if (s.reg rs).toNat < (imm.signExtend 32).toNat then 1#32 else 0#32))

/-- 40_arith_logic.md R120 to R125, bit by bit: bit `i` of the result is the bit of `x[rt]` that lands there, zero or a copy of
bit 31 where none does; a variable shift uses `x[rs]` modulo 32. For `sll` the word of all zeros is `nop`; the rotate forms of
`srl` and `srlv` are refused. -/
def Obligations.ShiftResults : Prop :=
  ∀ (s : State) (rd rs rt : Reg) (sa : BitVec 5),
    (¬(rd = 0#5 ∧ rt = 0#5 ∧ sa = 0#5) → Runs (rType 0#6 0#5 rt rd sa 0x00#6) (.sll rd rt sa) s (fun t =>
      ∃ v : Word, RegEffect s t rd v ∧ ∀ i < 32, v.getLsbD i = (decide (sa.toNat ≤ i) && (s.reg rt).getLsbD (i - sa.toNat)))) ∧
    Runs (rType 0#6 0#5 rt rd sa 0x02#6) (.srl rd rt sa) s (fun t =>
      ∃ v : Word, RegEffect s t rd v ∧ ∀ i < 32, v.getLsbD i = (s.reg rt).getLsbD (i + sa.toNat)) ∧
    Runs (rType 0#6 0#5 rt rd sa 0x03#6) (.sra rd rt sa) s (fun t =>
      ∃ v : Word, RegEffect s t rd v ∧ ∀ i < 32, v.getLsbD i = (s.reg rt).getLsbD (min (i + sa.toNat) 31)) ∧
    Runs (rType 0#6 rs rt rd 0#5 0x04#6) (.sllv rd rt rs) s (fun t =>
      ∃ v : Word, RegEffect s t rd v ∧ ∀ i < 32, v.getLsbD i =
        (decide ((s.reg rs).toNat % 32 ≤ i) && (s.reg rt).getLsbD (i - (s.reg rs).toNat % 32))) ∧
    Runs (rType 0#6 rs rt rd 0#5 0x06#6) (.srlv rd rt rs) s (fun t =>
      ∃ v : Word, RegEffect s t rd v ∧ ∀ i < 32, v.getLsbD i = (s.reg rt).getLsbD (i + (s.reg rs).toNat % 32)) ∧
    Runs (rType 0#6 rs rt rd 0#5 0x07#6) (.srav rd rt rs) s (fun t =>
      ∃ v : Word, RegEffect s t rd v ∧ ∀ i < 32, v.getLsbD i = (s.reg rt).getLsbD (min (i + (s.reg rs).toNat % 32) 31)) ∧
    decode (rType 0#6 0#5 0#5 0#5 0#5 0x00#6) = .ok .nop ∧
    (rs ≠ 0#5 → Refused (rType 0#6 rs rt rd sa 0x02#6)) ∧
    (sa ≠ 0#5 → Refused (rType 0#6 rs rt rd sa 0x06#6))

/-- 40_arith_logic.md R126, R127, R130. -/
def Obligations.ConditionalMovesAndNop : Prop :=
  ∀ (s : State) (rd rs rt : Reg),
    (s.reg rt = 0#32 → Runs (rType 0#6 rs rt rd 0#5 0x0A#6) (.movz rd rs rt) s (fun t => RegEffect s t rd (s.reg rs))) ∧
    (s.reg rt ≠ 0#32 → Runs (rType 0#6 rs rt rd 0#5 0x0A#6) (.movz rd rs rt) s (fun t => NoEffect s t)) ∧
    (s.reg rt ≠ 0#32 → Runs (rType 0#6 rs rt rd 0#5 0x0B#6) (.movn rd rs rt) s (fun t => RegEffect s t rd (s.reg rs))) ∧
    (s.reg rt = 0#32 → Runs (rType 0#6 rs rt rd 0#5 0x0B#6) (.movn rd rs rt) s (fun t => NoEffect s t)) ∧
    Runs 0#32 .nop s (fun t => NoEffect s t)

/-- 40_arith_logic.md R128, R129: `n` bits from bit 31 down are 0 (`clz`) or 1 (`clo`), and the next one, if any, is not;
`rt` of the word is ignored. -/
def Obligations.LeadingBitCounts : Prop :=
  ∀ (s : State) (rd rs rt : Reg),
    Runs (rType 0x1C#6 rs rt rd 0#5 0x20#6) (.clz rd rs) s (fun t =>
      ∃ n : Nat, n ≤ 32 ∧ RegEffect s t rd (BitVec.ofNat 32 n) ∧ (∀ k < n, (s.reg rs).getLsbD (31 - k) = false) ∧
        (n < 32 → (s.reg rs).getLsbD (31 - n) = true)) ∧
    Runs (rType 0x1C#6 rs rt rd 0#5 0x21#6) (.clo rd rs) s (fun t =>
      ∃ n : Nat, n ≤ 32 ∧ RegEffect s t rd (BitVec.ofNat 32 n) ∧ (∀ k < n, (s.reg rs).getLsbD (31 - k) = true) ∧
        (n < 32 → (s.reg rs).getLsbD (31 - n) = false))

/-! ### Multiply, divide and the accumulator (41_muldiv.md) -/

/-- 41_muldiv.md R141, R142: `HI || LO` is the exact 64-bit product. -/
def Obligations.MultiplyResults : Prop :=
  ∀ (s : State) (rs rt : Reg),
    Runs (rType 0#6 rs rt 0#5 0#5 0x18#6) (.mult rs rt) s
      (fun t => HiLoEffect s t (fun hi lo => (hi ++ lo).toInt = (s.reg rs).toInt * (s.reg rt).toInt)) ∧
    Runs (rType 0#6 rs rt 0#5 0#5 0x19#6) (.multu rs rt) s
      (fun t => HiLoEffect s t (fun hi lo => (hi ++ lo).toNat = (s.reg rs).toNat * (s.reg rt).toNat))

/-- 41_muldiv.md R150 to R153: `HI || LO` plus or minus the exact product, modulo 2^64. -/
def Obligations.AccumulateResults : Prop :=
  ∀ (s : State) (rs rt : Reg),
    Runs (rType 0x1C#6 rs rt 0#5 0#5 0x00#6) (.madd rs rt) s (fun t => HiLoEffect s t (fun hi lo =>
      ((hi ++ lo).toNat : Int) = ((s.hi ++ s.lo).toNat + (s.reg rs).toInt * (s.reg rt).toInt) % 2 ^ 64)) ∧
    Runs (rType 0x1C#6 rs rt 0#5 0#5 0x01#6) (.maddu rs rt) s (fun t => HiLoEffect s t (fun hi lo =>
      ((hi ++ lo).toNat : Int) = ((s.hi ++ s.lo).toNat + (s.reg rs).toNat * (s.reg rt).toNat) % 2 ^ 64)) ∧
    Runs (rType 0x1C#6 rs rt 0#5 0#5 0x04#6) (.msub rs rt) s (fun t => HiLoEffect s t (fun hi lo =>
      ((hi ++ lo).toNat : Int) = ((s.hi ++ s.lo).toNat - (s.reg rs).toInt * (s.reg rt).toInt) % 2 ^ 64)) ∧
    Runs (rType 0x1C#6 rs rt 0#5 0#5 0x05#6) (.msubu rs rt) s (fun t => HiLoEffect s t (fun hi lo =>
      ((hi ++ lo).toNat : Int) = ((s.hi ++ s.lo).toNat - (s.reg rs).toNat * (s.reg rt).toNat) % 2 ^ 64))

/-- 41_muldiv.md R140, R143, R144, for a divisor other than zero: `dividend = quotient * divisor + remainder`, the remainder
smaller in magnitude than the divisor and with the sign of the dividend; -2^31 by -1 wraps. Division by zero is
`DrawnResults`. -/
def Obligations.DivideResults : Prop :=
  ∀ (s : State) (rs rt : Reg), s.reg rt ≠ 0#32 →
    (¬(s.reg rs = 0x80000000#32 ∧ s.reg rt = 0xFFFFFFFF#32) →
      Runs (rType 0#6 rs rt 0#5 0#5 0x1A#6) (.div rs rt) s (fun t => HiLoEffect s t (fun hi lo =>
        (s.reg rs).toInt = lo.toInt * (s.reg rt).toInt + hi.toInt ∧ hi.toInt.natAbs < (s.reg rt).toInt.natAbs ∧
        (hi ≠ 0#32 → (hi.toInt < 0 ↔ (s.reg rs).toInt < 0))))) ∧
    (s.reg rs = 0x80000000#32 → s.reg rt = 0xFFFFFFFF#32 →
      Runs (rType 0#6 rs rt 0#5 0#5 0x1A#6) (.div rs rt) s (fun t => HiLoEffect s t (fun hi lo =>
        lo = 0x80000000#32 ∧ hi = 0#32))) ∧
    Runs (rType 0#6 rs rt 0#5 0#5 0x1B#6) (.divu rs rt) s (fun t => HiLoEffect s t (fun hi lo =>
      (s.reg rs).toNat = lo.toNat * (s.reg rt).toNat + hi.toNat ∧ hi.toNat < (s.reg rt).toNat))

/-- 41_muldiv.md R140, R149: HI and LO after a division by zero and after `mul` are draws; `mul` writes the low word of the
product. That a draw is a free value indexed by `drawCount` is the model's choice (log 6). -/
def Obligations.DrawnResults : Prop :=
  ∀ (s : State) (rd rs rt : Reg),
    (s.reg rt = 0#32 → Runs (rType 0#6 rs rt 0#5 0#5 0x1A#6) (.div rs rt) s (fun t =>
      SameRegs s t ∧ DrawnHiLo s t (Config.div0Hi s.drawCount) (Config.div0Lo s.drawCount))) ∧
    (s.reg rt = 0#32 → Runs (rType 0#6 rs rt 0#5 0#5 0x1B#6) (.divu rs rt) s (fun t =>
      SameRegs s t ∧ DrawnHiLo s t (Config.div0Hi s.drawCount) (Config.div0Lo s.drawCount))) ∧
    Runs (rType 0x1C#6 rs rt rd 0#5 0x02#6) (.mul rd rs rt) s (fun t =>
      RegWritten s t rd (BitVec.ofInt 32 ((s.reg rs).toInt * (s.reg rt).toInt)) ∧
      DrawnHiLo s t (Config.mulHi s.drawCount) (Config.mulLo s.drawCount))

/-- 41_muldiv.md R145 to R148. -/
def Obligations.HiLoMoves : Prop :=
  ∀ (s : State) (rd rs : Reg),
    Runs (rType 0#6 0#5 0#5 rd 0#5 0x10#6) (.mfhi rd) s (fun t => RegEffect s t rd s.hi) ∧
    Runs (rType 0#6 0#5 0#5 rd 0#5 0x12#6) (.mflo rd) s (fun t => RegEffect s t rd s.lo) ∧
    Runs (rType 0#6 rs 0#5 0#5 0#5 0x11#6) (.mthi rs) s
      (fun t => HiLoEffect s t (fun hi lo => hi = s.reg rs ∧ lo = s.lo)) ∧
    Runs (rType 0#6 rs 0#5 0#5 0#5 0x13#6) (.mtlo rs) s
      (fun t => HiLoEffect s t (fun hi lo => hi = s.hi ∧ lo = s.reg rs))

/-! ### Loads and stores (42_loadstore.md) -/

/-- 42_loadstore.md R161 to R165: the bytes at the effective address, little-endian and extended; a failing check is the fatal
`AddressErrorLoad` of that address. -/
def Obligations.LoadResults : Prop :=
  ∀ (s : State) (rt rs : Reg) (imm : BitVec 16) (ea : Word), ea = s.reg rs + imm.signExtend 32 →
    ChecksLoad (iType 0x20#6 rs rt imm) (.lb rt rs imm) s ea .byte ea
      (fun t => RegEffect s t rt ((Memory.byteAt s.mem ea).signExtend 32)) ∧
    ChecksLoad (iType 0x24#6 rs rt imm) (.lbu rt rs imm) s ea .byte ea
      (fun t => RegEffect s t rt (BitVec.ofNat 32 (Memory.byteAt s.mem ea).toNat)) ∧
    ChecksLoad (iType 0x21#6 rs rt imm) (.lh rt rs imm) s ea .half ea
      (fun t => RegEffect s t rt ((Memory.byteAt s.mem (ea + 1) ++ Memory.byteAt s.mem ea).signExtend 32)) ∧
    ChecksLoad (iType 0x25#6 rs rt imm) (.lhu rt rs imm) s ea .half ea
      (fun t => RegEffect s t rt
        (BitVec.ofNat 32 ((Memory.byteAt s.mem ea).toNat + 2 ^ 8 * (Memory.byteAt s.mem (ea + 1)).toNat))) ∧
    ChecksLoad (iType 0x23#6 rs rt imm) (.lw rt rs imm) s ea .word ea
      (fun t => ∃ v : Word, RegEffect s t rt v ∧
        ∀ k < 4, v.extractLsb' (8 * k) 8 = Memory.byteAt s.mem (ea + BitVec.ofNat 32 k))

/-- 42_loadstore.md R166, R167, byte by byte, with `b` the two low bits of the effective address and `w` the aligned word's
address: `lwl` puts the bytes `w` to `ea` at the top of the register, `lwr` the bytes `ea` to `w + 3` at the bottom, and the
other bytes are kept; the check is of `w`, the bad address is `ea`. -/
def Obligations.PartialLoadResults : Prop :=
  ∀ (s : State) (rt rs : Reg) (imm : BitVec 16) (ea w : Word) (b : Nat),
    ea = s.reg rs + imm.signExtend 32 → b = ea.toNat % 4 → w = BitVec.ofNat 32 (ea.toNat - b) →
    ChecksLoad (iType 0x22#6 rs rt imm) (.lwl rt rs imm) s w .word ea
      (fun t => ∃ v : Word, RegEffect s t rt v ∧ ∀ k < 4, v.extractLsb' (8 * k) 8 =
        if 3 - b ≤ k then Memory.byteAt s.mem (w + BitVec.ofNat 32 (k - (3 - b))) else (s.reg rt).extractLsb' (8 * k) 8) ∧
    ChecksLoad (iType 0x26#6 rs rt imm) (.lwr rt rs imm) s w .word ea
      (fun t => ∃ v : Word, RegEffect s t rt v ∧ ∀ k < 4, v.extractLsb' (8 * k) 8 =
        if k ≤ 3 - b then Memory.byteAt s.mem (ea + BitVec.ofNat 32 k) else (s.reg rt).extractLsb' (8 * k) 8)

/-- 42_loadstore.md R168 to R170: the low bytes of the register little-endian at the effective address, every other byte of
memory as before; a failing check is the fatal `AddressErrorStore` of that address with nothing written. -/
def Obligations.StoreResults : Prop :=
  ∀ (s : State) (rt rs : Reg) (imm : BitVec 16) (ea : Word), Memory.wf s.mem = true → ea = s.reg rs + imm.signExtend 32 →
    ChecksStore (iType 0x28#6 rs rt imm) (.sb rt rs imm) s ea .byte ea
      (fun t => StoreEffect s t ea [(s.reg rt).extractLsb' 0 8]) ∧
    ChecksStore (iType 0x29#6 rs rt imm) (.sh rt rs imm) s ea .half ea
      (fun t => StoreEffect s t ea [(s.reg rt).extractLsb' 0 8, (s.reg rt).extractLsb' 8 8]) ∧
    ChecksStore (iType 0x2B#6 rs rt imm) (.sw rt rs imm) s ea .word ea
      (fun t => StoreEffect s t ea [(s.reg rt).extractLsb' 0 8, (s.reg rt).extractLsb' 8 8, (s.reg rt).extractLsb' 16 8,
        (s.reg rt).extractLsb' 24 8])

/-- 42_loadstore.md R171, R172, with `b` and `w` as in `PartialLoadResults`: `swl` stores the `b + 1` top bytes of the register
at `w` to `ea`, `swr` the `4 - b` bottom bytes at `ea` to `w + 3`. -/
def Obligations.PartialStoreResults : Prop :=
  ∀ (s : State) (rt rs : Reg) (imm : BitVec 16) (ea w : Word) (b : Nat), Memory.wf s.mem = true →
    ea = s.reg rs + imm.signExtend 32 → b = ea.toNat % 4 → w = BitVec.ofNat 32 (ea.toNat - b) →
    ChecksStore (iType 0x2A#6 rs rt imm) (.swl rt rs imm) s w .word ea
      (fun t => StoreEffect s t w ((List.range (b + 1)).map (fun i => (s.reg rt).extractLsb' (8 * (3 - b + i)) 8))) ∧
    ChecksStore (iType 0x2E#6 rs rt imm) (.swr rt rs imm) s w .word ea
      (fun t => StoreEffect s t ea ((List.range (4 - b)).map (fun i => (s.reg rt).extractLsb' (8 * i) 8)))

/-- 42_loadstore.md R173, R174: `ll` loads a word and sets LLbit; `sc` checks first, stores and writes 1 when LLbit is set,
writes 0 and stores nothing when it is clear, and clears it; no other instruction but `eret` changes LLbit, so that nothing
else comes between the two. -/
def Obligations.LinkedLoadAndStore : Prop :=
  ∀ (s : State) (rt rs : Reg) (imm : BitVec 16) (ea : Word), Memory.wf s.mem = true → ea = s.reg rs + imm.signExtend 32 →
    ChecksLoad (iType 0x30#6 rs rt imm) (.ll rt rs imm) s ea .word ea
      (fun t => ∃ v : Word, LinkedEffect s t true rt v ea [] ∧
        ∀ k < 4, v.extractLsb' (8 * k) 8 = Memory.byteAt s.mem (ea + BitVec.ofNat 32 k)) ∧
    ChecksStore (iType 0x38#6 rs rt imm) (.sc rt rs imm) s ea .word ea (fun t =>
      (s.llBit = true → LinkedEffect s t false rt 1#32 ea [(s.reg rt).extractLsb' 0 8, (s.reg rt).extractLsb' 8 8,
        (s.reg rt).extractLsb' 16 8, (s.reg rt).extractLsb' 24 8]) ∧
      (s.llBit = false → LinkedEffect s t false rt 0#32 ea [])) ∧
    (∀ (i : Instr) (t : State), exec i s = .next t → i.writesLink = false → t.llBit = s.llBit)

/-- 20_memory.md R52, R53, R55, 10_state.md R33: which accesses are permitted; an aligned access lies in one segment. -/
def Obligations.AccessCheck : Prop :=
  ∀ (s : State) (a : Word) (n : Width),
    (s.check a n .fetch = true ↔ a.toNat % widthBytes n = 0 ∧
      (0x00400000 ≤ a.toNat ∧ a.toNat ≤ 0x0FFFFFFF ∨ 0x80000000 ≤ a.toNat ∧ a.toNat ≤ 0x8FFFFFFF ∧
        (s.cfg.enforceKernelPriv = true → s.status.getLsbD 1 = true ∨ s.status.getLsbD 4 = false))) ∧
    (s.check a n .load = true ↔ a.toNat % widthBytes n = 0 ∧
      (0x00400000 ≤ a.toNat ∧ a.toNat ≤ 0x7FFFFFFF ∨ 0x80000000 ≤ a.toNat ∧ a.toNat ≤ 0xFFFEFFFF ∧
        (s.cfg.enforceKernelPriv = true → s.status.getLsbD 1 = true ∨ s.status.getLsbD 4 = false))) ∧
    (s.check a n .store = true ↔ a.toNat % widthBytes n = 0 ∧
      (0x10000000 ≤ a.toNat ∧ a.toNat ≤ 0x7FFFFFFF ∨ 0x90000000 ≤ a.toNat ∧ a.toNat ≤ 0xFFFEFFFF ∧
        (s.cfg.enforceKernelPriv = true → s.status.getLsbD 1 = true ∨ s.status.getLsbD 4 = false))) ∧
    (a.toNat % widthBytes n = 0 → ∀ k < widthBytes n, segmentOf (a + BitVec.ofNat 32 k) = segmentOf a)

/-- 20_memory.md R54, R65: after a word store, a byte load from byte `k` of it, run by a state that differs only in its
registers and pc, gives bits `8k+7:8k` of the stored word. -/
def Obligations.StoreThenLoad : Prop :=
  ∀ (s : State) (rt rs rd base : Reg) (imm off : BitVec 16) (k : Nat), Memory.wf s.mem = true → k < 4 → rd ≠ 0#5 →
    s.check (s.ea rs imm) .word .store = true →
    ∃ t, exec (.sw rt rs imm) s = .next t ∧ ∀ u : State, u.mem = t.mem → u.cfg = t.cfg → u.status = t.status →
      u.ea base off = s.ea rs imm + BitVec.ofNat 32 k →
      ∃ v, exec (.lbu rd base off) u = .next v ∧ (v.reg rd).extractLsb' 0 8 = (s.reg rt).extractLsb' (8 * k) 8 ∧
        (v.reg rd).extractLsb' 8 24 = 0#24

/-! ### Branches and jumps (43_control.md) -/

/-- 43_control.md R190 to R197, outside a delay slot. The linking branches write x[31] taken or not, and their condition reads
the old register. `blez` and `bgtz` with a nonzero rt field are refused. -/
def Obligations.Branches : Prop :=
  ∀ (s : State) (rs rt : Reg) (imm : BitVec 16), s.pend = none →
    BranchesTo (iType 0x04#6 rs rt imm) (.beq rs rt imm) s imm (s.reg rs = s.reg rt) ∧
    BranchesTo (iType 0x05#6 rs rt imm) (.bne rs rt imm) s imm (s.reg rs ≠ s.reg rt) ∧
    BranchesTo (iType 0x06#6 rs 0#5 imm) (.blez rs imm) s imm ((s.reg rs).toInt ≤ 0) ∧
    BranchesTo (iType 0x07#6 rs 0#5 imm) (.bgtz rs imm) s imm ((s.reg rs).toInt > 0) ∧
    BranchesTo (iType 0x01#6 rs 0x00#5 imm) (.bltz rs imm) s imm ((s.reg rs).toInt < 0) ∧
    BranchesTo (iType 0x01#6 rs 0x01#5 imm) (.bgez rs imm) s imm ((s.reg rs).toInt ≥ 0) ∧
    BranchesLinking (iType 0x01#6 rs 0x10#5 imm) (.bltzal rs imm) s imm ((s.reg rs).toInt < 0) ∧
    BranchesLinking (iType 0x01#6 rs 0x11#5 imm) (.bgezal rs imm) s imm ((s.reg rs).toInt ≥ 0) ∧
    (rt ≠ 0#5 → Refused (iType 0x06#6 rs rt imm) ∧ Refused (iType 0x07#6 rs rt imm))

/-- 43_control.md R198 to R201, outside a delay slot. No jump checks its target; `jr` with a nonzero bit in 20:6 is refused. -/
def Obligations.Jumps : Prop :=
  ∀ (s : State) (rd rs : Reg) (index : BitVec 26), s.pend = none →
    Runs (jType 0x02#6 index) (.j index) s (fun t =>
      TransferEffect s t (BitVec.ofNat 32 ((s.pc + 4).toNat / 2 ^ 28 * 2 ^ 28 + 4 * index.toNat))) ∧
    Runs (jType 0x03#6 index) (.jal index) s (fun t =>
      LinkEffect s t 31#5 (BitVec.ofNat 32 ((s.pc + 4).toNat / 2 ^ 28 * 2 ^ 28 + 4 * index.toNat))) ∧
    Runs (rType 0#6 rs 0#5 0#5 0#5 0x08#6) (.jr rs) s (fun t => TransferEffect s t (s.reg rs)) ∧
    Runs (rType 0#6 rs 0#5 rd 0#5 0x09#6) (.jalr rd rs) s (fun t => LinkEffect s t rd (s.reg rs)) ∧
    (∀ low : BitVec 15, low ≠ 0#15 → Refused (0#6 ++ rs ++ low ++ 0x08#6))

/-- 43_control.md R182: in a delay slot a control transfer is not executed and ends the run with `DelaySlotControlTransfer`;
no other instruction ever raises it. -/
def Obligations.ControlTransferInDelaySlot : Prop :=
  (∀ (s : State) (i : Instr), s.pend.isSome = true → i.isControlTransfer = true →
    Completes i s (fun t => EndsFaulted s t .delaySlotControlTransfer .invalidOpcodeError 10#5 none)) ∧
  (∀ (s t : State) (i : Instr), i.isControlTransfer = false → exec i s = .next t →
    t.faultInfo = s.faultInfo ∨ ∃ fi, t.faultInfo = some fi ∧ fi.reason ≠ .delaySlotControlTransfer)

/-- 43_control.md R180, R181, R187: after a branch or jump the instruction at `pc + 4` runs exactly once as its delay slot,
taken or not: whatever instruction stands there, one step later nothing is pending, and control is at the target unless that
instruction took an exception or halted. -/
def Obligations.DelaySlotRunsOnce : Prop :=
  ∀ (s : State) (i : Instr), s.pend = none → i.isControlTransfer = true → i ≠ .eret →
    ∃ (t : State) (target : Word), exec i s = .next t ∧ t.pc = s.pc + 4 ∧
      t.pend = some { target := target, branch := s.pc } ∧
      ∀ j : Instr, ∃ u, exec j t = .next u ∧ u.pend = none ∧
        (u.pc = target ∨ (u.status.getLsbD 1 = true ∧ (u.pc = 0x80000180#32 ∨ u.runState = .faulted)) ∨
          (u.runState = .halted ∧ u.pc = t.pc))

/-! ### Syscall services (44_system.md) -/

/-- 44_system.md R212: service 1 sends the decimal text of `signed(x[4])`. -/
def Obligations.PrintIntegerService : Prop :=
  ∀ (s : State) (code : BitVec 20), s.reg 2#5 = 1#32 →
    Runs (codeType code 0x0C#6) .syscall s (fun t =>
      ∃ text : List Byte, DecimalText text (s.reg 4#5).toInt ∧ PrintEffect s t text)

/-- 44_system.md R213: service 4 sends the bytes from `x[4]` up to the first zero byte, every one readable; if a byte before
it may not be read the run ends with `AddressErrorLoad` of its address and nothing is sent. -/
def Obligations.PrintStringService : Prop :=
  ∀ (s : State) (code : BitVec 20) (a : Word) (n : Nat), s.reg 2#5 = 4#32 → a = s.reg 4#5 →
    (∀ i < n, s.check (a + BitVec.ofNat 32 i) .byte .load = true ∧ Memory.byteAt s.mem (a + BitVec.ofNat 32 i) ≠ 0#8) →
    (s.check (a + BitVec.ofNat 32 n) .byte .load = true → Memory.byteAt s.mem (a + BitVec.ofNat 32 n) = 0#8 →
      Runs (codeType code 0x0C#6) .syscall s (fun t =>
        PrintEffect s t ((List.range n).map (fun i => Memory.byteAt s.mem (a + BitVec.ofNat 32 i))))) ∧
    (s.check (a + BitVec.ofNat 32 n) .byte .load = false →
      Runs (codeType code 0x0C#6) .syscall s (fun t =>
        EndsFaulted s t .addressErrorLoad .addressError 4#5 (some (a + BitVec.ofNat 32 n))))

/-- 44_system.md R214, with the host's answer as the model holds it (log 4) and used up on an error too (log 9). -/
def Obligations.ReadIntegerService : Prop :=
  ∀ (s s' : State) (code : BitVec 20) (answer : Option Word), s.reg 2#5 = 5#32 → AnswersInt s answer s' →
    (∀ v, answer = some v → Runs (codeType code 0x0C#6) .syscall s (fun t => RegEffect s' t 2#5 v)) ∧
    (answer = none → Runs (codeType code 0x0C#6) .syscall s (fun t =>
      EndsFaulted s' t .syscallError .syscallError 8#5 none))

/-- 44_system.md R215, with the host's answer as the model holds it (log 4) and used up on an error too (log 9): nothing for a
size of 0 or less; else at most `n - 1` bytes of the answer and a zero byte at `x[4]`, if every one of those addresses may be
written, and else the fatal `AddressErrorStore` of the first that may not, with nothing written. -/
def Obligations.ReadStringService : Prop :=
  ∀ (s : State) (code : BitVec 20) (buf : Word) (n : Int), Memory.wf s.mem = true → s.reg 2#5 = 8#32 → buf = s.reg 4#5 →
    n = (s.reg 5#5).toInt →
    (n ≤ 0 → Runs (codeType code 0x0C#6) .syscall s (fun t => NoEffect s t)) ∧
    (0 < n → ∀ (str : List Byte) (s' : State) (k : Nat), AnswersStr s str s' → (k : Int) = min (str.length : Int) (n - 1) →
      ((∀ i ≤ k, s.check (buf + BitVec.ofNat 32 i) .byte .store = true) →
        Runs (codeType code 0x0C#6) .syscall s (fun t => StoreEffect s' t buf (str.take k ++ [0#8]))) ∧
      (∀ i ≤ k, s.check (buf + BitVec.ofNat 32 i) .byte .store = false →
        (∀ j < i, s.check (buf + BitVec.ofNat 32 j) .byte .store = true) →
        Runs (codeType code 0x0C#6) .syscall s (fun t =>
          EndsFaulted s' t .addressErrorStore .addressError 5#5 (some (buf + BitVec.ofNat 32 i)))))

/-- 44_system.md R216: with `r` the size rounded up to a multiple of 4, `x[2]` is the old `heapTop`, which grows by `r`; a
negative size or a block that leaves the data segment is the fatal `SyscallError`. No access check depends on `heapTop`. -/
def Obligations.AllocateService : Prop :=
  ∀ (s : State) (code : BitVec 20), s.reg 2#5 = 9#32 →
    ((s.reg 4#5).toInt < 0 → Runs (codeType code 0x0C#6) .syscall s (fun t =>
      EndsFaulted s t .syscallError .syscallError 8#5 none)) ∧
    (∀ r : Nat, 0 ≤ (s.reg 4#5).toInt → (s.reg 4#5).toInt ≤ r → (r : Int) < (s.reg 4#5).toInt + 4 → r % 4 = 0 →
      (s.heapTop.toNat + r > 0x80000000 → Runs (codeType code 0x0C#6) .syscall s (fun t =>
        EndsFaulted s t .syscallError .syscallError 8#5 none)) ∧
      (s.heapTop.toNat + r ≤ 0x80000000 → Runs (codeType code 0x0C#6) .syscall s (fun t =>
        AllocateEffect s t (s.heapTop.toNat + r)))) ∧
    (∀ (top a : Word) (n : Width) (k : AccessKind), { s with heapTop := top }.check a n k = s.check a n k)

/-- 44_system.md R217 and the last line of R210: service 10 ends the run with exit code 0; a number outside the table is the
fatal `SyscallError`. -/
def Obligations.ExitAndUnknownService : Prop :=
  ∀ (s : State) (code : BitVec 20),
    (s.reg 2#5 = 10#32 → Runs (codeType code 0x0C#6) .syscall s (fun t => HaltEffect s t 0#32)) ∧
    (s.reg 2#5 ∉ [1#32, 4#32, 5#32, 8#32, 9#32, 10#32] → Runs (codeType code 0x0C#6) .syscall s (fun t =>
      EndsFaulted s t .syscallError .syscallError 8#5 none))

/-! ### Break, traps, exception return and Coprocessor 0 (44_system.md) -/

/-- 44_system.md R218. -/
def Obligations.BreakException : Prop :=
  ∀ (s : State) (code : BitVec 20), Runs (codeType code 0x0D#6) (.brk code) s (fun t => Trapped s t 9#5 .unhandledBreakpoint)

/-- 44_system.md R220 to R225, with the law of R219. -/
def Obligations.RegisterTraps : Prop :=
  ∀ (s : State) (rs rt : Reg) (code : BitVec 10),
    ChecksTrap (trapType rs rt code 0x34#6) (.teq rs rt code) s (s.reg rs = s.reg rt) ∧
    ChecksTrap (trapType rs rt code 0x36#6) (.tne rs rt code) s (s.reg rs ≠ s.reg rt) ∧
    ChecksTrap (trapType rs rt code 0x30#6) (.tge rs rt code) s ((s.reg rs).toInt ≥ (s.reg rt).toInt) ∧
    ChecksTrap (trapType rs rt code 0x31#6) (.tgeu rs rt code) s ((s.reg rs).toNat ≥ (s.reg rt).toNat) ∧
    ChecksTrap (trapType rs rt code 0x32#6) (.tlt rs rt code) s ((s.reg rs).toInt < (s.reg rt).toInt) ∧
    ChecksTrap (trapType rs rt code 0x33#6) (.tltu rs rt code) s ((s.reg rs).toNat < (s.reg rt).toNat)

/-- 44_system.md R226 to R231, with the law of R219: the immediate is sign-extended, for the unsigned comparisons too. -/
def Obligations.ImmediateTraps : Prop :=
  ∀ (s : State) (rs : Reg) (imm : BitVec 16),
    ChecksTrap (iType 0x01#6 rs 0x0C#5 imm) (.teqi rs imm) s (s.reg rs = imm.signExtend 32) ∧
    ChecksTrap (iType 0x01#6 rs 0x0E#5 imm) (.tnei rs imm) s (s.reg rs ≠ imm.signExtend 32) ∧
    ChecksTrap (iType 0x01#6 rs 0x08#5 imm) (.tgei rs imm) s ((s.reg rs).toInt ≥ imm.toInt) ∧
    ChecksTrap (iType 0x01#6 rs 0x09#5 imm) (.tgeiu rs imm) s ((s.reg rs).toNat ≥ (imm.signExtend 32).toNat) ∧
    ChecksTrap (iType 0x01#6 rs 0x0A#5 imm) (.tlti rs imm) s ((s.reg rs).toInt < imm.toInt) ∧
    ChecksTrap (iType 0x01#6 rs 0x0B#5 imm) (.tltiu rs imm) s ((s.reg rs).toNat < (imm.signExtend 32).toNat)

/-- 44_system.md R232, in either mode; in a delay slot it is refused (43_control.md R182). -/
def Obligations.ExceptionReturn : Prop :=
  ∀ s : State,
    (s.pend = none → Runs 0x42000018#32 .eret s (fun t => ReturnEffect s t)) ∧
    (s.pend.isSome = true →
      Runs 0x42000018#32 .eret s (fun t => EndsFaulted s t .delaySlotControlTransfer .invalidOpcodeError 10#5 none))

/-- 44_system.md R233, R234, in either mode; a number that names no register is an invalid opcode. -/
def Obligations.Coprocessor0Moves : Prop :=
  ∀ (s : State) (rt : Reg) (rd : BitVec 5),
    Runs (rType 0x10#6 0x00#5 rt 8#5 0#5 0#6) (.mfc0 rt 8) s (fun t => RegEffect s t rt s.badVAddr) ∧
    Runs (rType 0x10#6 0x00#5 rt 12#5 0#5 0#6) (.mfc0 rt 12) s (fun t => RegEffect s t rt s.status) ∧
    Runs (rType 0x10#6 0x00#5 rt 13#5 0#5 0#6) (.mfc0 rt 13) s (fun t => RegEffect s t rt s.cause) ∧
    Runs (rType 0x10#6 0x00#5 rt 14#5 0#5 0#6) (.mfc0 rt 14) s (fun t => RegEffect s t rt s.epc) ∧
    (rd ∈ [8#5, 12#5, 13#5, 14#5] →
      Runs (rType 0x10#6 0x04#5 rt rd 0#5 0#6) (.mtc0 rt rd) s (fun t => Cp0Effect s t rd (s.reg rt))) ∧
    (∀ low : BitVec 11, ¬(rd ∈ [8#5, 12#5, 13#5, 14#5] ∧ low = 0#11) →
      Refused (iType 0x10#6 0x00#5 rt (rd ++ low)) ∧ Refused (iType 0x10#6 0x04#5 rt (rd ++ low)))

/-! ### Exceptions (60_exceptions.md) -/

/-- 60_exceptions.md R243 to R246, with the codes, kinds and reasons of R240: what taking each exception writes, and where it
goes. The last clause, that once the run has ended a step with no command waiting is a fault, is the model's choice (log 7). -/
def Obligations.ExceptionProcess : Prop :=
  ∀ (s : State) (a : Word) (code20 : BitVec 20) (code10 : BitVec 10),
    EndsFaulted s (s.takeException (.addressErrorFetch a)) .addressErrorFetch .addressError 4#5 (some a) ∧
    EndsFaulted s (s.takeException (.addressErrorLoad a)) .addressErrorLoad .addressError 4#5 (some a) ∧
    EndsFaulted s (s.takeException (.addressErrorStore a)) .addressErrorStore .addressError 5#5 (some a) ∧
    EndsFaulted s (s.takeException .arithmeticOverflow) .arithmeticOverflow .arithmeticFault 12#5 none ∧
    EndsFaulted s (s.takeException .invalidOpcode) .invalidOpcode .invalidOpcodeError 10#5 none ∧
    EndsFaulted s (s.takeException .delaySlotControlTransfer) .delaySlotControlTransfer .invalidOpcodeError 10#5 none ∧
    EndsFaulted s (s.takeException (.syscallError a)) .syscallError .syscallError 8#5 none ∧
    Trapped s (s.takeException (.breakpoint code20)) 9#5 .unhandledBreakpoint ∧
    Trapped s (s.takeException (.trap code10)) 13#5 .unhandledTrap ∧
    (s.runState = .faulted → s.commands = [] → step s = .fault .faulted)

/-- 60_exceptions.md R241, 00_scope.md R15: an instruction that raises, seen by `EXL` rising without an `mtc0` or by the run
becoming `Faulted`, has no effect on a general register, HI, LO, LLbit, `heapTop`, the bytes of memory or the console's
output. -/
def Obligations.ExceptionsArePrecise : Prop :=
  ∀ (i : Instr) (s t : State), exec i s = .next t →
    (s.exl = false ∧ t.exl = true ∧ i.isMtc0 = false) ∨ (s.runState ≠ .faulted ∧ t.runState = .faulted) →
    SameRegs s t ∧ SameHiLo s t ∧ t.llBit = s.llBit ∧ t.heapTop = s.heapTop ∧ SameBytes s t ∧ t.consoleOut = s.consoleOut ∧
      SameHost s t ∧ t.exitCode = s.exitCode ∧ t.pend = none ∧ (t.pc = s.pc ∨ t.pc = 0x80000180#32)

/-- 60_exceptions.md R245, R248: with `EXL` clear and a handler installed, `break` goes to the handler in kernel mode, and an
`eret` there goes back to it (to its branch, if it stood in a delay slot) with `Status` and every general register as before
and LLbit clear. -/
def Obligations.HandlerReturnRestores : Prop :=
  ∀ (s : State) (code : BitVec 20), s.exl = false → s.handlerInstalled = true →
    ∃ t u, exec (.brk code) s = .next t ∧ t.pc = 0x80000180#32 ∧ t.kernel = true ∧ exec .eret t = .next u ∧
      (s.pend = none → u.pc = s.pc) ∧ (∀ p, s.pend = some p → u.pc = p.branch) ∧ u.pend = none ∧
      u.status = s.status ∧ u.llBit = false ∧ SameRegs s u ∧ SameBytes s u ∧ u.runState = s.runState

/-- 60_exceptions.md R247: a handler is installed exactly when the image defines a text word at 0x80000180, and no step but a
`load` changes that. -/
def Obligations.HandlerInstalledIsFixed : Prop :=
  (∀ s : State, s.handlerInstalled = true ↔ ∃ img w, s.image = some img ∧ (0x80000180#32, w) ∈ img.text) ∧
  (∀ s t : State, step s = .next t → (∀ img rest, s.commands ≠ .load img :: rest) → t.handlerInstalled = s.handlerInstalled)

/-! ### The whole machine -/

/-- The invariant holds at power-on (70_reset_and_hazards.md R291; the values there are the model's, log 1). -/
def Obligations.InvAtReset : Prop := State.reset.Inv

/-- Every step keeps the invariant, from every state that meets it. -/
def Obligations.StepKeepsInv : Prop := ∀ s t : State, s.Inv → step s = .next t → t.Inv

/-- 20_memory.md R67: no instruction, and no step but a `load` or a `reset`, changes a byte of a text segment; where those
bytes are the image's, every fetch that is permitted returns the image's word, or `FETCH_EMPTY`'s answer. -/
def Obligations.TextIsNeverWritten : Prop :=
  (∀ (s t : State) (a : Word), Memory.wf s.mem = true → step s = .next t →
    (∀ img rest, s.commands ≠ .load img :: rest) → (∀ rest, s.commands ≠ .reset :: rest) →
    InTextSegment a → Memory.byteAt t.mem a = Memory.byteAt s.mem a) ∧
  (∀ (i : Instr) (s t : State) (a : Word), Memory.wf s.mem = true → exec i s = .next t →
    InTextSegment a → Memory.byteAt t.mem a = Memory.byteAt s.mem a) ∧
  (∀ (s : State) (img : Image) (a w : Word), s.TextIntact → s.image = some img → img.valid = true → (a, w) ∈ img.text →
    s.check a .word .fetch = true → s.fetch a = .word w) ∧
  (∀ (s : State) (a : Word), s.check a .word .fetch = true → (∀ img w, s.image = some img → (a, w) ∉ img.text) →
    s.fetch a = match s.cfg.fetchEmpty with | .zeroWord => .word 0#32 | .halt => .endOfRun)

/-- 60_exceptions.md R251, 10_state.md R29: every instruction runs in either mode; the mode changes only by exception entry,
`eret` and `mtc0`; no instruction but `mtc0` changes a bit of `Status` other than `EXL`. -/
def Obligations.ModeChanges : Prop :=
  (∀ (i : Instr) (s : State), ∃ t, exec i s = .next t) ∧
  (∀ (i : Instr) (s t : State), exec i s = .next t → t.kernel ≠ s.kernel →
    i.isMtc0 = true ∨ i = .eret ∨
      (s.kernel = false ∧ t.exl = true ∧ t.pend = none ∧ (t.pc = 0x80000180#32 ∨ t.runState = .faulted))) ∧
  (∀ (i : Instr) (s t : State) (k : Nat), exec i s = .next t → i.isMtc0 = false → k ≠ 1 →
    t.status.getLsbD k = s.status.getLsbD k)

/-- 60_exceptions.md R251, 20_memory.md R53: with privilege enforced, an instruction in user mode neither changes a byte of a
kernel segment nor learns one: run from two states that differ only in such bytes, it leaves states that differ only in
them. -/
def Obligations.UserModeIsolation : Prop :=
  ∀ (i : Instr) (s t : State) (m : Memory), Memory.wf s.mem = true → Memory.wf m = true →
    s.kernel = false → s.cfg.enforceKernelPriv = true →
    (∀ a : Word, a.toNat < 0x80000000 → Memory.byteAt m a = Memory.byteAt s.mem a) →
    exec i s = .next t →
    (∀ a : Word, 0x80000000 ≤ a.toNat → Memory.byteAt t.mem a = Memory.byteAt s.mem a) ∧
    ∃ m' : Memory, exec i { s with mem := m } = .next { t with mem := m' } ∧
      (∀ a : Word, a.toNat < 0x80000000 → Memory.byteAt m' a = Memory.byteAt t.mem a) ∧
      (∀ a : Word, 0x80000000 ≤ a.toNat → Memory.byteAt m' a = Memory.byteAt m a)

/-! ### Run control (70_reset_and_hazards.md) -/

/-- 70_reset_and_hazards.md R285, R286, R288 and the `run()` and `step()` columns of R280: what each of these commands does in
each run state, and where it is refused. -/
def Obligations.RunPauseAndBreakpointCommands : Prop :=
  ∀ (s : State) (a : Word),
    (∀ c ∈ [Command.pause, Command.stop],
      (s.runState = .running → s.command c = some { s with runState := .paused }) ∧
      (s.runState ≠ .running → s.command c = none)) ∧
    (∃ l : List Word, s.command (.setBreakpoint a) = some { s with breakpoints := l } ∧
      ∀ b, b ∈ l ↔ b = a ∨ b ∈ s.breakpoints) ∧
    (∃ l : List Word, s.command (.clearBreakpoint a) = some { s with breakpoints := l } ∧
      ∀ b, b ∈ l ↔ b ≠ a ∧ b ∈ s.breakpoints) ∧
    (s.runState = .loaded → s.command .run = some { s with runState := .running }) ∧
    (s.runState = .paused → s.command .run = some { s with runState := .running, skipBreak := true }) ∧
    (s.runState ≠ .loaded ∧ s.runState ≠ .paused → s.command .run = none ∧ s.command .step = none)

/-- 70_reset_and_hazards.md R281, R282: `load` is accepted in `Idle` and `Loaded` for an image that passes the validation, and
installs it; any other `load` is refused. `reset` reinstalls the retained image in every state but `Idle`, where it is
refused. -/
def Obligations.LoadAndResetInstallTheImage : Prop :=
  ∀ (s : State) (img : Image),
    (s.runState = .idle ∨ s.runState = .loaded → ImageOk img → ∃ t, s.command (.load img) = some t ∧ Installed s t img) ∧
    (¬((s.runState = .idle ∨ s.runState = .loaded) ∧ ImageOk img) → s.command (.load img) = none) ∧
    (s.runState ≠ .idle → s.image = some img → ImageOk img → ∃ t, s.command .reset = some t ∧ Installed s t img) ∧
    (s.runState = .idle → s.command .reset = none)

/-- 70_reset_and_hazards.md R280, R284: a waiting command is taken before anything runs, the oldest first, and a refused one
changes nothing; every command but `step` is the whole step. That the waiting commands are a list is the model's choice
(log 2). -/
def Obligations.StepTakesTheOldestCommand : Prop :=
  ∀ (s : State) (c : Command) (rest : List Command), s.commands = c :: rest →
    ({ s with commands := rest }.command c = none → step s = .next { s with commands := rest }) ∧
    (∀ t, c ≠ .step → { s with commands := rest }.command c = some t → step s = .next t)

/-- 70_reset_and_hazards.md R283: `step()` in `Loaded` or `Paused` clears `skipBreak`, executes one instruction with no
breakpoint check, and ends `Halted` or `Faulted` if that ended the run, else `Paused`. -/
def Obligations.SingleStepCommand : Prop :=
  ∀ (s : State) (rest : List Command), s.commands = .step :: rest → s.runState = .loaded ∨ s.runState = .paused →
    ∃ t, { s with commands := rest, skipBreak := false }.instrStep = .next t ∧
      (t.runState = .halted ∨ t.runState = .faulted → step s = .next t) ∧
      (t.runState ≠ .halted ∧ t.runState ≠ .faulted → step s = .next { t with runState := .paused })

/-- 70_reset_and_hazards.md R284, R289: in the `run` loop a breakpoint at pc pauses without executing or changing anything else
unless `skipBreak` is set; otherwise `skipBreak` is cleared and one instruction is executed. -/
def Obligations.RunLoopIteration : Prop :=
  ∀ s : State, s.commands = [] → s.runState = .running →
    (s.pc ∈ s.breakpoints → s.skipBreak = false → step s = .next { s with runState := .paused }) ∧
    (s.pc ∉ s.breakpoints ∨ s.skipBreak = true → step s = { s with skipBreak := false }.instrStep)

/-- 70_reset_and_hazards.md R287: in `Halted` and `Faulted` no step runs, every command but `reset` and the breakpoint
commands is refused, and `reset` leads to `Loaded`. That a step with nothing to do is a fault is the model's choice
(log 7). -/
def Obligations.TerminalStates : Prop :=
  ∀ s : State, s.runState = .halted ∨ s.runState = .faulted →
    (s.commands = [] → step s = .fault (if s.runState = .halted then .halted else .faulted)) ∧
    (∀ img, s.command (.load img) = none) ∧ s.command .run = none ∧ s.command .step = none ∧ s.command .pause = none ∧
    s.command .stop = none ∧ (∀ a, (s.command (.setBreakpoint a)).isSome = true ∧ (s.command (.clearBreakpoint a)).isSome = true) ∧
    (∀ img, s.image = some img → ∃ t, s.command .reset = some t ∧ t.runState = .loaded)

/-- 70_reset_and_hazards.md R290, 20_memory.md R69: which query is answered in which state, and with what. -/
def Obligations.Queries : Prop :=
  ∀ s : State,
    s.getState = s.runState ∧
    (s.runState = .idle ∨ s.runState = .running →
      (∀ i, s.readRegister i = none) ∧ (∀ a n, s.readMemory a n = none) ∧ s.getFaultInfo = none) ∧
    (s.runState = .faulted → s.getFaultInfo = s.faultInfo) ∧ (s.runState ≠ .faulted → s.getFaultInfo = none) ∧
    (s.runState ∈ [RunState.loaded, .paused, .halted, .faulted] →
      (∀ r : Reg, s.readRegister r.toNat = some (s.reg r)) ∧
      s.readRegister 32 = some s.pc ∧ s.readRegister 33 = some s.hi ∧ s.readRegister 34 = some s.lo ∧
      s.readRegister 35 = some s.badVAddr ∧ s.readRegister 36 = some s.status ∧ s.readRegister 37 = some s.cause ∧
      s.readRegister 38 = some s.epc ∧ (∀ i, 38 < i → s.readRegister i = none) ∧
      (∀ (a : Word) (n : Width),
        (∀ k < widthBytes n, 0x00400000 ≤ (a + BitVec.ofNat 32 k).toNat ∧ (a + BitVec.ofNat 32 k).toNat ≤ 0xFFFEFFFF) →
        ∃ v : Word, s.readMemory a n = some v ∧ v.toNat < 2 ^ (8 * widthBytes n) ∧
          ∀ k < widthBytes n, v.extractLsb' (8 * k) 8 = Memory.byteAt s.mem (a + BitVec.ofNat 32 k)) ∧
      (∀ (a : Word) (n : Width),
        (∃ k < widthBytes n, ¬(0x00400000 ≤ (a + BitVec.ofNat 32 k).toNat ∧ (a + BitVec.ofNat 32 k).toNat ≤ 0xFFFEFFFF)) →
        s.readMemory a n = none))

/-- 70_reset_and_hazards.md R291: at power-on the block is `Idle` with no breakpoint and no image, and nothing runs until a
`load`. -/
def Obligations.PowerOn : Prop :=
  State.reset.runState = .idle ∧ State.reset.breakpoints = [] ∧ State.reset.image = none ∧
  (∀ c : Command, (∀ img, c ≠ .load img) → (∀ a, c ≠ .setBreakpoint a ∧ c ≠ .clearBreakpoint a) →
    State.reset.command c = none) ∧
  (∀ img : Image, ImageOk img → ∃ t, State.reset.command (.load img) = some t ∧ t.pc = img.entry)
end

