-- ==== Sys2Proof/Laws/Encoding.lean ====
section
/-! SUPPORT. The fields of the words the encoder builds (30_encoding.md R81, R82), so that no proof takes a concatenation
apart again, and how `and` with a mask acts on them. -/

namespace Sys2Proof

section Fields
variable (op : BitVec 6) (rs rt rd : Reg) (sa : BitVec 5) (funct : BitVec 6) (imm : BitVec 16)
  (index : BitVec 26) (code10 : BitVec 10) (code20 : BitVec 20)

@[simp] theorem opOf_rType : opOf (rType op rs rt rd sa funct) = op := by
  unfold opOf rType
  repeat rw [BitVec.extractLsb'_append_eq_of_le (by decide)]
  exact BitVec.extractLsb'_eq_self

@[simp] theorem rsOf_rType : rsOf (rType op rs rt rd sa funct) = rs := by
  unfold rsOf rType
  repeat rw [BitVec.extractLsb'_append_eq_of_le (by decide)]
  repeat rw [BitVec.extractLsb'_append_eq_of_add_le (by decide)]
  exact BitVec.extractLsb'_eq_self

@[simp] theorem rtOf_rType : rtOf (rType op rs rt rd sa funct) = rt := by
  unfold rtOf rType
  repeat rw [BitVec.extractLsb'_append_eq_of_le (by decide)]
  repeat rw [BitVec.extractLsb'_append_eq_of_add_le (by decide)]
  exact BitVec.extractLsb'_eq_self

@[simp] theorem rdOf_rType : rdOf (rType op rs rt rd sa funct) = rd := by
  unfold rdOf rType
  repeat rw [BitVec.extractLsb'_append_eq_of_le (by decide)]
  repeat rw [BitVec.extractLsb'_append_eq_of_add_le (by decide)]
  exact BitVec.extractLsb'_eq_self

@[simp] theorem saOf_rType : saOf (rType op rs rt rd sa funct) = sa := by
  unfold saOf rType
  repeat rw [BitVec.extractLsb'_append_eq_of_le (by decide)]
  repeat rw [BitVec.extractLsb'_append_eq_of_add_le (by decide)]
  exact BitVec.extractLsb'_eq_self

@[simp] theorem functOf_rType : functOf (rType op rs rt rd sa funct) = funct := by
  unfold functOf rType
  repeat rw [BitVec.extractLsb'_append_eq_of_add_le (by decide)]
  exact BitVec.extractLsb'_eq_self

@[simp] theorem opOf_iType : opOf (iType op rs rt imm) = op := by
  unfold opOf iType
  repeat rw [BitVec.extractLsb'_append_eq_of_le (by decide)]
  exact BitVec.extractLsb'_eq_self

@[simp] theorem rsOf_iType : rsOf (iType op rs rt imm) = rs := by
  unfold rsOf iType
  repeat rw [BitVec.extractLsb'_append_eq_of_le (by decide)]
  repeat rw [BitVec.extractLsb'_append_eq_of_add_le (by decide)]
  exact BitVec.extractLsb'_eq_self

@[simp] theorem rtOf_iType : rtOf (iType op rs rt imm) = rt := by
  unfold rtOf iType
  repeat rw [BitVec.extractLsb'_append_eq_of_le (by decide)]
  repeat rw [BitVec.extractLsb'_append_eq_of_add_le (by decide)]
  exact BitVec.extractLsb'_eq_self

@[simp] theorem immOf_iType : immOf (iType op rs rt imm) = imm := by
  unfold immOf iType
  repeat rw [BitVec.extractLsb'_append_eq_of_add_le (by decide)]
  exact BitVec.extractLsb'_eq_self

@[simp] theorem opOf_jType : opOf (jType op index) = op := by
  unfold opOf jType
  repeat rw [BitVec.extractLsb'_append_eq_of_le (by decide)]
  exact BitVec.extractLsb'_eq_self

@[simp] theorem indexOf_jType : indexOf (jType op index) = index := by
  unfold indexOf jType
  repeat rw [BitVec.extractLsb'_append_eq_of_add_le (by decide)]
  exact BitVec.extractLsb'_eq_self

@[simp] theorem opOf_trapType : opOf (trapType rs rt code10 funct) = 0#6 := by
  unfold opOf trapType
  repeat rw [BitVec.extractLsb'_append_eq_of_le (by decide)]
  exact BitVec.extractLsb'_eq_self

@[simp] theorem rsOf_trapType : rsOf (trapType rs rt code10 funct) = rs := by
  unfold rsOf trapType
  repeat rw [BitVec.extractLsb'_append_eq_of_le (by decide)]
  repeat rw [BitVec.extractLsb'_append_eq_of_add_le (by decide)]
  exact BitVec.extractLsb'_eq_self

@[simp] theorem rtOf_trapType : rtOf (trapType rs rt code10 funct) = rt := by
  unfold rtOf trapType
  repeat rw [BitVec.extractLsb'_append_eq_of_le (by decide)]
  repeat rw [BitVec.extractLsb'_append_eq_of_add_le (by decide)]
  exact BitVec.extractLsb'_eq_self

@[simp] theorem code10Of_trapType : code10Of (trapType rs rt code10 funct) = code10 := by
  unfold code10Of trapType
  repeat rw [BitVec.extractLsb'_append_eq_of_le (by decide)]
  repeat rw [BitVec.extractLsb'_append_eq_of_add_le (by decide)]
  exact BitVec.extractLsb'_eq_self

@[simp] theorem functOf_trapType : functOf (trapType rs rt code10 funct) = funct := by
  unfold functOf trapType
  repeat rw [BitVec.extractLsb'_append_eq_of_add_le (by decide)]
  exact BitVec.extractLsb'_eq_self

@[simp] theorem opOf_codeType : opOf (codeType code20 funct) = 0#6 := by
  unfold opOf codeType
  repeat rw [BitVec.extractLsb'_append_eq_of_le (by decide)]
  exact BitVec.extractLsb'_eq_self

@[simp] theorem code20Of_codeType : code20Of (codeType code20 funct) = code20 := by
  unfold code20Of codeType
  repeat rw [BitVec.extractLsb'_append_eq_of_le (by decide)]
  repeat rw [BitVec.extractLsb'_append_eq_of_add_le (by decide)]
  exact BitVec.extractLsb'_eq_self

@[simp] theorem functOf_codeType : functOf (codeType code20 funct) = funct := by
  unfold functOf codeType
  repeat rw [BitVec.extractLsb'_append_eq_of_add_le (by decide)]
  exact BitVec.extractLsb'_eq_self

end Fields

/-! ### Masks -/

/-- `and` of two words of one format is the word of the `and`s of their fields. -/
theorem rType_and (op op' : BitVec 6) (rs rt rd rs' rt' rd' : Reg) (sa sa' : BitVec 5) (f f' : BitVec 6) :
    rType op rs rt rd sa f &&& rType op' rs' rt' rd' sa' f' =
      rType (op &&& op') (rs &&& rs') (rt &&& rt') (rd &&& rd') (sa &&& sa') (f &&& f') := by
  unfold rType
  repeat rw [BitVec.and_append]

theorem iType_and (op op' : BitVec 6) (rs rt rs' rt' : Reg) (imm imm' : BitVec 16) :
    iType op rs rt imm &&& iType op' rs' rt' imm' = iType (op &&& op') (rs &&& rs') (rt &&& rt') (imm &&& imm') := by
  unfold iType
  repeat rw [BitVec.and_append]

theorem jType_and (op op' : BitVec 6) (index index' : BitVec 26) :
    jType op index &&& jType op' index' = jType (op &&& op') (index &&& index') := by
  unfold jType
  repeat rw [BitVec.and_append]

theorem trapType_and (rs rt rs' rt' : Reg) (c c' : BitVec 10) (f f' : BitVec 6) :
    trapType rs rt c f &&& trapType rs' rt' c' f' = trapType (rs &&& rs') (rt &&& rt') (c &&& c') (f &&& f') := by
  unfold trapType
  repeat rw [BitVec.and_append]
  rw [BitVec.and_self]

theorem codeType_and (c c' : BitVec 20) (f f' : BitVec 6) :
    codeType c f &&& codeType c' f' = codeType (c &&& c') (f &&& f') := by
  unfold codeType
  repeat rw [BitVec.and_append]
  rw [BitVec.and_self]

/-! ### Bytes of a word -/

/-- A word is put together again from its four bytes (20_memory.md R54). -/
@[simp] theorem wordOfBytes_byteOf (w : Word) : wordOfBytes (byteOf w 0) (byteOf w 1) (byteOf w 2) (byteOf w 3) = w := by
  unfold wordOfBytes byteOf
  rw [BitVec.extractLsb'_append_extractLsb'_eq_extractLsb' (by decide),
    BitVec.extractLsb'_append_extractLsb'_eq_extractLsb' (by decide),
    BitVec.extractLsb'_append_extractLsb'_eq_extractLsb' (by decide)]
  exact BitVec.extractLsb'_eq_self

/-- The bytes of a word built from four bytes (20_memory.md R54). -/
theorem byteOf_wordOfBytes (b0 b1 b2 b3 : Byte) :
    byteOf (wordOfBytes b0 b1 b2 b3) 0 = b0 ∧ byteOf (wordOfBytes b0 b1 b2 b3) 1 = b1 ∧
    byteOf (wordOfBytes b0 b1 b2 b3) 2 = b2 ∧ byteOf (wordOfBytes b0 b1 b2 b3) 3 = b3 := by
  unfold byteOf wordOfBytes
  refine ⟨?_, ?_, ?_, ?_⟩
  · repeat rw [BitVec.extractLsb'_append_eq_of_add_le (by decide)]
    exact BitVec.extractLsb'_eq_self
  · repeat rw [BitVec.extractLsb'_append_eq_of_le (by decide)]
    repeat rw [BitVec.extractLsb'_append_eq_of_add_le (by decide)]
    exact BitVec.extractLsb'_eq_self
  · repeat rw [BitVec.extractLsb'_append_eq_of_le (by decide)]
    repeat rw [BitVec.extractLsb'_append_eq_of_add_le (by decide)]
    exact BitVec.extractLsb'_eq_self
  · repeat rw [BitVec.extractLsb'_append_eq_of_le (by decide)]
    exact BitVec.extractLsb'_eq_self

end Sys2Proof
end

