-- ==== Sys2Proof/Laws/Memory.lean ====
section
/-! SUPPORT. Memory: reads after writes, and that every memory operation keeps the canonical form. -/

namespace Sys2Proof.Machine

/-! ### One cell -/

theorem Memory.read_consCell (a b : Nat) (v : Byte) (m : Memory) (h : b = a → Memory.read m b = unlistedByte) :
    Memory.read (Memory.consCell a v m) b = if b = a then v else Memory.read m b := by
  unfold Memory.consCell
  by_cases hv : v = unlistedByte
  · by_cases hb : b = a <;> simp [hv, hb]
    exact hb ▸ h hb
  · simp [hv, Memory.read]

/-- An address below the canonical form's start reads as unlisted. -/
theorem Memory.read_below {lo a : Nat} {m : Memory} (hm : Memory.wfFrom lo m = true) (h : a < lo) :
    Memory.read m a = unlistedByte := by
  induction m generalizing lo with
  | nil => rfl
  | cons c rest ih =>
    obtain ⟨b, v⟩ := c
    simp only [Memory.wfFrom, Bool.and_eq_true, decide_eq_true_eq] at hm
    rw [Memory.read, if_neg (by omega)]
    exact ih hm.2 (by omega)

theorem Memory.wfFrom_mono {lo lo' : Nat} {m : Memory} (hm : Memory.wfFrom lo m = true) (h : lo' ≤ lo) :
    Memory.wfFrom lo' m = true := by
  cases m with
  | nil => rfl
  | cons c rest =>
    simp only [Memory.wfFrom, Bool.and_eq_true, decide_eq_true_eq] at hm ⊢
    exact ⟨⟨⟨by omega, hm.1.1.2⟩, hm.1.2⟩, hm.2⟩

theorem Memory.wfFrom_consCell {lo a : Nat} {v : Byte} {m : Memory} (hlo : lo ≤ a) (ha : a < 2 ^ 32)
    (hm : Memory.wfFrom (a + 1) m = true) : Memory.wfFrom lo (Memory.consCell a v m) = true := by
  unfold Memory.consCell
  split
  · exact Memory.wfFrom_mono hm (by omega)
  · simp only [Memory.wfFrom, Bool.and_eq_true, decide_eq_true_eq]
    exact ⟨⟨⟨hlo, ha⟩, by assumption⟩, hm⟩

/-! ### Write -/

/-- A read after a write, on a memory in canonical form. -/
theorem Memory.read_write {lo : Nat} {m : Memory} (hm : Memory.wfFrom lo m = true) (a b : Nat) (v : Byte) :
    Memory.read (Memory.write m a v) b = if b = a then v else Memory.read m b := by
  induction m generalizing lo with
  | nil => exact Memory.read_consCell a b v [] (fun _ => rfl)
  | cons c rest ih =>
    obtain ⟨k, u⟩ := c
    have hc := hm
    simp only [Memory.wfFrom, Bool.and_eq_true, decide_eq_true_eq] at hm
    unfold Memory.write
    split
    · refine Memory.read_consCell a b v _ (fun hb => ?_)
      have hk : Memory.wfFrom k ((k, u) :: rest) = true := by
        simp only [Memory.wfFrom, Bool.and_eq_true, decide_eq_true_eq]
        exact ⟨⟨⟨Nat.le_refl _, hm.1.1.2⟩, hm.1.2⟩, hm.2⟩
      exact Memory.read_below hk (by omega)
    · split
      · subst a
        rw [Memory.read_consCell k b v rest (fun hb => Memory.read_below hm.2 (by omega)), Memory.read]
        split <;> simp_all
      · rw [Memory.read, Memory.read, ih hm.2]
        split
        · rw [if_neg (by omega)]
        · rfl

/-- A write keeps the canonical form. -/
theorem Memory.wfFrom_write {lo : Nat} {m : Memory} (hm : Memory.wfFrom lo m = true) {a : Nat} (hlo : lo ≤ a)
    (ha : a < 2 ^ 32) (v : Byte) : Memory.wfFrom lo (Memory.write m a v) = true := by
  induction m generalizing lo with
  | nil => exact Memory.wfFrom_consCell hlo ha rfl
  | cons c rest ih =>
    obtain ⟨k, u⟩ := c
    have hc := hm
    simp only [Memory.wfFrom, Bool.and_eq_true, decide_eq_true_eq] at hm
    unfold Memory.write
    split
    · refine Memory.wfFrom_consCell hlo ha ?_
      simp only [Memory.wfFrom, Bool.and_eq_true, decide_eq_true_eq]
      exact ⟨⟨⟨by omega, hm.1.1.2⟩, hm.1.2⟩, hm.2⟩
    · split
      · subst a
        exact Memory.wfFrom_consCell hlo ha hm.2
      · simp only [Memory.wfFrom, Bool.and_eq_true, decide_eq_true_eq]
        exact ⟨⟨⟨hm.1.1.1, hm.1.1.2⟩, hm.1.2⟩, ih hm.2 (by omega)⟩

/-! ### Bytes at 32-bit addresses -/

/-- The byte at an address after a write of one byte (20_memory.md R58). -/
theorem Memory.byteAt_setByteAt {m : Memory} (hm : Memory.wf m = true) (a b : Word) (v : Byte) :
    Memory.byteAt (Memory.setByteAt m a v) b = if b = a then v else Memory.byteAt m b := by
  unfold Memory.byteAt Memory.setByteAt
  rw [Memory.read_write hm]
  simp only [BitVec.toNat_inj]

theorem Memory.wf_setByteAt {m : Memory} (hm : Memory.wf m = true) (a : Word) (v : Byte) :
    Memory.wf (Memory.setByteAt m a v) = true :=
  Memory.wfFrom_write hm (Nat.zero_le _) a.isLt v

theorem Memory.wf_storeBytes {m : Memory} (hm : Memory.wf m = true) (a : Word) (bs : List Byte) :
    Memory.wf (Memory.storeBytes m a bs) = true := by
  induction bs generalizing m a with
  | nil => exact hm
  | cons b bs ih => exact ih (Memory.wf_setByteAt hm a b) _

theorem Memory.wf_store {m : Memory} (hm : Memory.wf m = true) (a : Word) (w : Width) (v : Word) :
    Memory.wf (Memory.store m a w v) = true :=
  Memory.wf_storeBytes hm a _

theorem Memory.wf_installText {m : Memory} (hm : Memory.wf m = true) (l : List (Word × Word)) :
    Memory.wf (Memory.installText m l) = true := by
  induction l generalizing m with
  | nil => exact hm
  | cons p l ih => exact ih (Memory.wf_store hm p.1 .word p.2)

theorem Memory.wf_installData {m : Memory} (hm : Memory.wf m = true) (l : List (Word × Byte)) :
    Memory.wf (Memory.installData m l) = true := by
  induction l generalizing m with
  | nil => exact hm
  | cons p l ih => exact ih (Memory.wf_setByteAt hm p.1 p.2)

/-- The memory an image is installed in has the canonical form (20_memory.md R51). -/
theorem Image.wf_memory (img : Image) : Memory.wf img.memory = true :=
  Memory.wf_installData (Memory.wf_installText rfl img.text) img.data

/-- The power-on memory has the canonical form. -/
theorem State.reset_mem_wf : Memory.wf State.reset.mem = true := rfl

/-- A store of bytes leaves every address it does not name alone: `b` is none of the addresses from `a` on. -/
theorem Memory.byteAt_storeBytes_of_ne {m : Memory} (hm : Memory.wf m = true) (a b : Word) (bs : List Byte)
    (h : ∀ i < bs.length, b ≠ a + BitVec.ofNat 32 i) :
    Memory.byteAt (Memory.storeBytes m a bs) b = Memory.byteAt m b := by
  induction bs generalizing m a with
  | nil => rfl
  | cons v bs ih =>
    rw [Memory.storeBytes, ih (Memory.wf_setByteAt hm a v) (a + 1) (fun i hi => ?_), Memory.byteAt_setByteAt hm, if_neg]
    · simpa using h 0 (by simp)
    · have := h (i + 1) (by simpa using hi)
      rwa [show a + 1 + BitVec.ofNat 32 i = a + BitVec.ofNat 32 (i + 1) by
        rw [Nat.add_comm i 1, BitVec.ofNat_add, ← BitVec.add_assoc]; rfl]

end Sys2Proof.Machine
end

