-- ==== Sys2Proof/Laws/State.lean ====
section
/-! SUPPORT. One lemma per field per update: what each named update of State leaves alone. -/

namespace Sys2Proof.Machine

section
variable (s : State)

/-! ### setReg -/

@[simp] theorem setReg_pc (r : Reg) (v : Word) : (s.setReg r v).pc = s.pc := by unfold State.setReg; split <;> rfl
@[simp] theorem setReg_pend (r : Reg) (v : Word) : (s.setReg r v).pend = s.pend := by unfold State.setReg; split <;> rfl
@[simp] theorem setReg_hi (r : Reg) (v : Word) : (s.setReg r v).hi = s.hi := by unfold State.setReg; split <;> rfl
@[simp] theorem setReg_lo (r : Reg) (v : Word) : (s.setReg r v).lo = s.lo := by unfold State.setReg; split <;> rfl
@[simp] theorem setReg_badVAddr (r : Reg) (v : Word) : (s.setReg r v).badVAddr = s.badVAddr := by unfold State.setReg; split <;> rfl
@[simp] theorem setReg_status (r : Reg) (v : Word) : (s.setReg r v).status = s.status := by unfold State.setReg; split <;> rfl
@[simp] theorem setReg_cause (r : Reg) (v : Word) : (s.setReg r v).cause = s.cause := by unfold State.setReg; split <;> rfl
@[simp] theorem setReg_epc (r : Reg) (v : Word) : (s.setReg r v).epc = s.epc := by unfold State.setReg; split <;> rfl
@[simp] theorem setReg_llBit (r : Reg) (v : Word) : (s.setReg r v).llBit = s.llBit := by unfold State.setReg; split <;> rfl
@[simp] theorem setReg_mem (r : Reg) (v : Word) : (s.setReg r v).mem = s.mem := by unfold State.setReg; split <;> rfl
@[simp] theorem setReg_runState (r : Reg) (v : Word) : (s.setReg r v).runState = s.runState := by unfold State.setReg; split <;> rfl
@[simp] theorem setReg_faultInfo (r : Reg) (v : Word) : (s.setReg r v).faultInfo = s.faultInfo := by unfold State.setReg; split <;> rfl
@[simp] theorem setReg_breakpoints (r : Reg) (v : Word) : (s.setReg r v).breakpoints = s.breakpoints := by unfold State.setReg; split <;> rfl
@[simp] theorem setReg_skipBreak (r : Reg) (v : Word) : (s.setReg r v).skipBreak = s.skipBreak := by unfold State.setReg; split <;> rfl
@[simp] theorem setReg_heapTop (r : Reg) (v : Word) : (s.setReg r v).heapTop = s.heapTop := by unfold State.setReg; split <;> rfl
@[simp] theorem setReg_exitCode (r : Reg) (v : Word) : (s.setReg r v).exitCode = s.exitCode := by unfold State.setReg; split <;> rfl
@[simp] theorem setReg_image (r : Reg) (v : Word) : (s.setReg r v).image = s.image := by unfold State.setReg; split <;> rfl
@[simp] theorem setReg_commands (r : Reg) (v : Word) : (s.setReg r v).commands = s.commands := by unfold State.setReg; split <;> rfl
@[simp] theorem setReg_consoleOut (r : Reg) (v : Word) : (s.setReg r v).consoleOut = s.consoleOut := by unfold State.setReg; split <;> rfl
@[simp] theorem setReg_consoleInts (r : Reg) (v : Word) : (s.setReg r v).consoleInts = s.consoleInts := by unfold State.setReg; split <;> rfl
@[simp] theorem setReg_consoleStrs (r : Reg) (v : Word) : (s.setReg r v).consoleStrs = s.consoleStrs := by unfold State.setReg; split <;> rfl
@[simp] theorem setReg_cfg (r : Reg) (v : Word) : (s.setReg r v).cfg = s.cfg := by unfold State.setReg; split <;> rfl
@[simp] theorem setReg_drawCount (r : Reg) (v : Word) : (s.setReg r v).drawCount = s.drawCount := by unfold State.setReg; split <;> rfl

/-! ### schedule -/

@[simp] theorem schedule_gpr (n : NextPc) : (s.schedule n).gpr = s.gpr := by
  cases n with
  | seq => unfold State.schedule; cases s.pend <;> rfl
  | _ => rfl
@[simp] theorem schedule_hi (n : NextPc) : (s.schedule n).hi = s.hi := by
  cases n with
  | seq => unfold State.schedule; cases s.pend <;> rfl
  | _ => rfl
@[simp] theorem schedule_lo (n : NextPc) : (s.schedule n).lo = s.lo := by
  cases n with
  | seq => unfold State.schedule; cases s.pend <;> rfl
  | _ => rfl
@[simp] theorem schedule_badVAddr (n : NextPc) : (s.schedule n).badVAddr = s.badVAddr := by
  cases n with
  | seq => unfold State.schedule; cases s.pend <;> rfl
  | _ => rfl
@[simp] theorem schedule_status (n : NextPc) : (s.schedule n).status = s.status := by
  cases n with
  | seq => unfold State.schedule; cases s.pend <;> rfl
  | _ => rfl
@[simp] theorem schedule_cause (n : NextPc) : (s.schedule n).cause = s.cause := by
  cases n with
  | seq => unfold State.schedule; cases s.pend <;> rfl
  | _ => rfl
@[simp] theorem schedule_epc (n : NextPc) : (s.schedule n).epc = s.epc := by
  cases n with
  | seq => unfold State.schedule; cases s.pend <;> rfl
  | _ => rfl
@[simp] theorem schedule_llBit (n : NextPc) : (s.schedule n).llBit = s.llBit := by
  cases n with
  | seq => unfold State.schedule; cases s.pend <;> rfl
  | _ => rfl
@[simp] theorem schedule_mem (n : NextPc) : (s.schedule n).mem = s.mem := by
  cases n with
  | seq => unfold State.schedule; cases s.pend <;> rfl
  | _ => rfl
@[simp] theorem schedule_faultInfo (n : NextPc) : (s.schedule n).faultInfo = s.faultInfo := by
  cases n with
  | seq => unfold State.schedule; cases s.pend <;> rfl
  | _ => rfl
@[simp] theorem schedule_breakpoints (n : NextPc) : (s.schedule n).breakpoints = s.breakpoints := by
  cases n with
  | seq => unfold State.schedule; cases s.pend <;> rfl
  | _ => rfl
@[simp] theorem schedule_skipBreak (n : NextPc) : (s.schedule n).skipBreak = s.skipBreak := by
  cases n with
  | seq => unfold State.schedule; cases s.pend <;> rfl
  | _ => rfl
@[simp] theorem schedule_heapTop (n : NextPc) : (s.schedule n).heapTop = s.heapTop := by
  cases n with
  | seq => unfold State.schedule; cases s.pend <;> rfl
  | _ => rfl
@[simp] theorem schedule_image (n : NextPc) : (s.schedule n).image = s.image := by
  cases n with
  | seq => unfold State.schedule; cases s.pend <;> rfl
  | _ => rfl
@[simp] theorem schedule_commands (n : NextPc) : (s.schedule n).commands = s.commands := by
  cases n with
  | seq => unfold State.schedule; cases s.pend <;> rfl
  | _ => rfl
@[simp] theorem schedule_consoleOut (n : NextPc) : (s.schedule n).consoleOut = s.consoleOut := by
  cases n with
  | seq => unfold State.schedule; cases s.pend <;> rfl
  | _ => rfl
@[simp] theorem schedule_consoleInts (n : NextPc) : (s.schedule n).consoleInts = s.consoleInts := by
  cases n with
  | seq => unfold State.schedule; cases s.pend <;> rfl
  | _ => rfl
@[simp] theorem schedule_consoleStrs (n : NextPc) : (s.schedule n).consoleStrs = s.consoleStrs := by
  cases n with
  | seq => unfold State.schedule; cases s.pend <;> rfl
  | _ => rfl
@[simp] theorem schedule_cfg (n : NextPc) : (s.schedule n).cfg = s.cfg := by
  cases n with
  | seq => unfold State.schedule; cases s.pend <;> rfl
  | _ => rfl
@[simp] theorem schedule_drawCount (n : NextPc) : (s.schedule n).drawCount = s.drawCount := by
  cases n with
  | seq => unfold State.schedule; cases s.pend <;> rfl
  | _ => rfl
@[simp] theorem schedule_seq_runState : (s.schedule .seq).runState = s.runState := by unfold State.schedule; cases s.pend <;> rfl
@[simp] theorem schedule_branch_runState (t : Word) : (s.schedule (.branch t)).runState = s.runState := rfl
@[simp] theorem schedule_ret_runState (t : Word) : (s.schedule (.ret t)).runState = s.runState := rfl
@[simp] theorem schedule_seq_exitCode : (s.schedule .seq).exitCode = s.exitCode := by unfold State.schedule; cases s.pend <;> rfl
@[simp] theorem schedule_branch_exitCode (t : Word) : (s.schedule (.branch t)).exitCode = s.exitCode := rfl
@[simp] theorem schedule_ret_exitCode (t : Word) : (s.schedule (.ret t)).exitCode = s.exitCode := rfl
@[simp] theorem schedule_seq_pend : (s.schedule .seq).pend = none := by
  unfold State.schedule
  cases s.pend <;> rfl
@[simp] theorem schedule_branch_pc (t : Word) : (s.schedule (.branch t)).pc = s.pc + 4 := rfl
@[simp] theorem schedule_branch_pend (t : Word) :
    (s.schedule (.branch t)).pend = some { target := t, branch := s.pc } := rfl
@[simp] theorem schedule_ret_pc (t : Word) : (s.schedule (.ret t)).pc = t := rfl
@[simp] theorem schedule_ret_pend (t : Word) : (s.schedule (.ret t)).pend = none := rfl
@[simp] theorem schedule_halt_pc (c : Word) : (s.schedule (.halt c)).pc = s.pc := rfl
@[simp] theorem schedule_halt_pend (c : Word) : (s.schedule (.halt c)).pend = none := rfl
@[simp] theorem schedule_halt_runState (c : Word) : (s.schedule (.halt c)).runState = .halted := rfl
@[simp] theorem schedule_halt_exitCode (c : Word) : (s.schedule (.halt c)).exitCode = some c := rfl

/-! ### recordException -/

@[simp] theorem recordException_gpr (e : Exc) : (s.recordException e).gpr = s.gpr := rfl
@[simp] theorem recordException_pc (e : Exc) : (s.recordException e).pc = s.pc := rfl
@[simp] theorem recordException_hi (e : Exc) : (s.recordException e).hi = s.hi := rfl
@[simp] theorem recordException_lo (e : Exc) : (s.recordException e).lo = s.lo := rfl
@[simp] theorem recordException_llBit (e : Exc) : (s.recordException e).llBit = s.llBit := rfl
@[simp] theorem recordException_mem (e : Exc) : (s.recordException e).mem = s.mem := rfl
@[simp] theorem recordException_runState (e : Exc) : (s.recordException e).runState = s.runState := rfl
@[simp] theorem recordException_faultInfo (e : Exc) : (s.recordException e).faultInfo = s.faultInfo := rfl
@[simp] theorem recordException_breakpoints (e : Exc) : (s.recordException e).breakpoints = s.breakpoints := rfl
@[simp] theorem recordException_skipBreak (e : Exc) : (s.recordException e).skipBreak = s.skipBreak := rfl
@[simp] theorem recordException_heapTop (e : Exc) : (s.recordException e).heapTop = s.heapTop := rfl
@[simp] theorem recordException_exitCode (e : Exc) : (s.recordException e).exitCode = s.exitCode := rfl
@[simp] theorem recordException_image (e : Exc) : (s.recordException e).image = s.image := rfl
@[simp] theorem recordException_commands (e : Exc) : (s.recordException e).commands = s.commands := rfl
@[simp] theorem recordException_consoleOut (e : Exc) : (s.recordException e).consoleOut = s.consoleOut := rfl
@[simp] theorem recordException_consoleInts (e : Exc) : (s.recordException e).consoleInts = s.consoleInts := rfl
@[simp] theorem recordException_consoleStrs (e : Exc) : (s.recordException e).consoleStrs = s.consoleStrs := rfl
@[simp] theorem recordException_cfg (e : Exc) : (s.recordException e).cfg = s.cfg := rfl
@[simp] theorem recordException_drawCount (e : Exc) : (s.recordException e).drawCount = s.drawCount := rfl
@[simp] theorem recordException_pend (e : Exc) : (s.recordException e).pend = none := rfl
@[simp] theorem recordException_status (e : Exc) : (s.recordException e).status = withExl s.status := rfl

/-! ### fatal -/

@[simp] theorem fatal_gpr (e : Exc) (r : FaultReason) : (s.fatal e r).gpr = s.gpr := rfl
@[simp] theorem fatal_pc (e : Exc) (r : FaultReason) : (s.fatal e r).pc = s.pc := rfl
@[simp] theorem fatal_pend (e : Exc) (r : FaultReason) : (s.fatal e r).pend = s.pend := rfl
@[simp] theorem fatal_hi (e : Exc) (r : FaultReason) : (s.fatal e r).hi = s.hi := rfl
@[simp] theorem fatal_lo (e : Exc) (r : FaultReason) : (s.fatal e r).lo = s.lo := rfl
@[simp] theorem fatal_badVAddr (e : Exc) (r : FaultReason) : (s.fatal e r).badVAddr = s.badVAddr := rfl
@[simp] theorem fatal_status (e : Exc) (r : FaultReason) : (s.fatal e r).status = s.status := rfl
@[simp] theorem fatal_cause (e : Exc) (r : FaultReason) : (s.fatal e r).cause = s.cause := rfl
@[simp] theorem fatal_epc (e : Exc) (r : FaultReason) : (s.fatal e r).epc = s.epc := rfl
@[simp] theorem fatal_llBit (e : Exc) (r : FaultReason) : (s.fatal e r).llBit = s.llBit := rfl
@[simp] theorem fatal_mem (e : Exc) (r : FaultReason) : (s.fatal e r).mem = s.mem := rfl
@[simp] theorem fatal_breakpoints (e : Exc) (r : FaultReason) : (s.fatal e r).breakpoints = s.breakpoints := rfl
@[simp] theorem fatal_skipBreak (e : Exc) (r : FaultReason) : (s.fatal e r).skipBreak = s.skipBreak := rfl
@[simp] theorem fatal_heapTop (e : Exc) (r : FaultReason) : (s.fatal e r).heapTop = s.heapTop := rfl
@[simp] theorem fatal_exitCode (e : Exc) (r : FaultReason) : (s.fatal e r).exitCode = s.exitCode := rfl
@[simp] theorem fatal_image (e : Exc) (r : FaultReason) : (s.fatal e r).image = s.image := rfl
@[simp] theorem fatal_commands (e : Exc) (r : FaultReason) : (s.fatal e r).commands = s.commands := rfl
@[simp] theorem fatal_consoleOut (e : Exc) (r : FaultReason) : (s.fatal e r).consoleOut = s.consoleOut := rfl
@[simp] theorem fatal_consoleInts (e : Exc) (r : FaultReason) : (s.fatal e r).consoleInts = s.consoleInts := rfl
@[simp] theorem fatal_consoleStrs (e : Exc) (r : FaultReason) : (s.fatal e r).consoleStrs = s.consoleStrs := rfl
@[simp] theorem fatal_cfg (e : Exc) (r : FaultReason) : (s.fatal e r).cfg = s.cfg := rfl
@[simp] theorem fatal_drawCount (e : Exc) (r : FaultReason) : (s.fatal e r).drawCount = s.drawCount := rfl
@[simp] theorem fatal_runState (e : Exc) (r : FaultReason) : (s.fatal e r).runState = .faulted := rfl

/-! ### takeException -/

@[simp] theorem takeException_gpr (e : Exc) : (s.takeException e).gpr = s.gpr := by
  unfold State.takeException; dsimp only; split <;> (try split) <;> (try split) <;> rfl
@[simp] theorem takeException_hi (e : Exc) : (s.takeException e).hi = s.hi := by
  unfold State.takeException; dsimp only; split <;> (try split) <;> (try split) <;> rfl
@[simp] theorem takeException_lo (e : Exc) : (s.takeException e).lo = s.lo := by
  unfold State.takeException; dsimp only; split <;> (try split) <;> (try split) <;> rfl
@[simp] theorem takeException_llBit (e : Exc) : (s.takeException e).llBit = s.llBit := by
  unfold State.takeException; dsimp only; split <;> (try split) <;> (try split) <;> rfl
@[simp] theorem takeException_mem (e : Exc) : (s.takeException e).mem = s.mem := by
  unfold State.takeException; dsimp only; split <;> (try split) <;> (try split) <;> rfl
@[simp] theorem takeException_breakpoints (e : Exc) : (s.takeException e).breakpoints = s.breakpoints := by
  unfold State.takeException; dsimp only; split <;> (try split) <;> (try split) <;> rfl
@[simp] theorem takeException_skipBreak (e : Exc) : (s.takeException e).skipBreak = s.skipBreak := by
  unfold State.takeException; dsimp only; split <;> (try split) <;> (try split) <;> rfl
@[simp] theorem takeException_heapTop (e : Exc) : (s.takeException e).heapTop = s.heapTop := by
  unfold State.takeException; dsimp only; split <;> (try split) <;> (try split) <;> rfl
@[simp] theorem takeException_exitCode (e : Exc) : (s.takeException e).exitCode = s.exitCode := by
  unfold State.takeException; dsimp only; split <;> (try split) <;> (try split) <;> rfl
@[simp] theorem takeException_image (e : Exc) : (s.takeException e).image = s.image := by
  unfold State.takeException; dsimp only; split <;> (try split) <;> (try split) <;> rfl
@[simp] theorem takeException_commands (e : Exc) : (s.takeException e).commands = s.commands := by
  unfold State.takeException; dsimp only; split <;> (try split) <;> (try split) <;> rfl
@[simp] theorem takeException_consoleOut (e : Exc) : (s.takeException e).consoleOut = s.consoleOut := by
  unfold State.takeException; dsimp only; split <;> (try split) <;> (try split) <;> rfl
@[simp] theorem takeException_consoleInts (e : Exc) : (s.takeException e).consoleInts = s.consoleInts := by
  unfold State.takeException; dsimp only; split <;> (try split) <;> (try split) <;> rfl
@[simp] theorem takeException_consoleStrs (e : Exc) : (s.takeException e).consoleStrs = s.consoleStrs := by
  unfold State.takeException; dsimp only; split <;> (try split) <;> (try split) <;> rfl
@[simp] theorem takeException_cfg (e : Exc) : (s.takeException e).cfg = s.cfg := by
  unfold State.takeException; dsimp only; split <;> (try split) <;> (try split) <;> rfl
@[simp] theorem takeException_drawCount (e : Exc) : (s.takeException e).drawCount = s.drawCount := by
  unfold State.takeException; dsimp only; split <;> (try split) <;> (try split) <;> rfl
@[simp] theorem takeException_badVAddr (e : Exc) : (s.takeException e).badVAddr = (s.recordException e).badVAddr := by
  unfold State.takeException; dsimp only; split <;> (try split) <;> (try split) <;> rfl
@[simp] theorem takeException_cause (e : Exc) : (s.takeException e).cause = (s.recordException e).cause := by
  unfold State.takeException; dsimp only; split <;> (try split) <;> (try split) <;> rfl
@[simp] theorem takeException_epc (e : Exc) : (s.takeException e).epc = (s.recordException e).epc := by
  unfold State.takeException; dsimp only; split <;> (try split) <;> (try split) <;> rfl
@[simp] theorem takeException_status (e : Exc) : (s.takeException e).status = (s.recordException e).status := by
  unfold State.takeException; dsimp only; split <;> (try split) <;> (try split) <;> rfl
@[simp] theorem takeException_pend (e : Exc) : (s.takeException e).pend = (s.recordException e).pend := by
  unfold State.takeException; dsimp only; split <;> (try split) <;> (try split) <;> rfl

/-! ### send -/

@[simp] theorem send_gpr (b : List Byte) : (s.send b).gpr = s.gpr := rfl
@[simp] theorem send_pc (b : List Byte) : (s.send b).pc = s.pc := rfl
@[simp] theorem send_pend (b : List Byte) : (s.send b).pend = s.pend := rfl
@[simp] theorem send_hi (b : List Byte) : (s.send b).hi = s.hi := rfl
@[simp] theorem send_lo (b : List Byte) : (s.send b).lo = s.lo := rfl
@[simp] theorem send_badVAddr (b : List Byte) : (s.send b).badVAddr = s.badVAddr := rfl
@[simp] theorem send_status (b : List Byte) : (s.send b).status = s.status := rfl
@[simp] theorem send_cause (b : List Byte) : (s.send b).cause = s.cause := rfl
@[simp] theorem send_epc (b : List Byte) : (s.send b).epc = s.epc := rfl
@[simp] theorem send_llBit (b : List Byte) : (s.send b).llBit = s.llBit := rfl
@[simp] theorem send_mem (b : List Byte) : (s.send b).mem = s.mem := rfl
@[simp] theorem send_runState (b : List Byte) : (s.send b).runState = s.runState := rfl
@[simp] theorem send_faultInfo (b : List Byte) : (s.send b).faultInfo = s.faultInfo := rfl
@[simp] theorem send_breakpoints (b : List Byte) : (s.send b).breakpoints = s.breakpoints := rfl
@[simp] theorem send_skipBreak (b : List Byte) : (s.send b).skipBreak = s.skipBreak := rfl
@[simp] theorem send_heapTop (b : List Byte) : (s.send b).heapTop = s.heapTop := rfl
@[simp] theorem send_exitCode (b : List Byte) : (s.send b).exitCode = s.exitCode := rfl
@[simp] theorem send_image (b : List Byte) : (s.send b).image = s.image := rfl
@[simp] theorem send_commands (b : List Byte) : (s.send b).commands = s.commands := rfl
@[simp] theorem send_consoleInts (b : List Byte) : (s.send b).consoleInts = s.consoleInts := rfl
@[simp] theorem send_consoleStrs (b : List Byte) : (s.send b).consoleStrs = s.consoleStrs := rfl
@[simp] theorem send_cfg (b : List Byte) : (s.send b).cfg = s.cfg := rfl
@[simp] theorem send_drawCount (b : List Byte) : (s.send b).drawCount = s.drawCount := rfl
@[simp] theorem send_consoleOut (b : List Byte) : (s.send b).consoleOut = s.consoleOut ++ b := rfl

/-! ### install -/

@[simp] theorem install_breakpoints (img : Image) : (s.install img).breakpoints = s.breakpoints := rfl
@[simp] theorem install_commands (img : Image) : (s.install img).commands = s.commands := rfl
@[simp] theorem install_consoleOut (img : Image) : (s.install img).consoleOut = s.consoleOut := rfl
@[simp] theorem install_consoleInts (img : Image) : (s.install img).consoleInts = s.consoleInts := rfl
@[simp] theorem install_consoleStrs (img : Image) : (s.install img).consoleStrs = s.consoleStrs := rfl
@[simp] theorem install_cfg (img : Image) : (s.install img).cfg = s.cfg := rfl
@[simp] theorem install_drawCount (img : Image) : (s.install img).drawCount = s.drawCount := rfl

end

end Sys2Proof.Machine
end

