-- ==== Sys2Proof/Laws/Ops.lean ====
section
/-! SUPPORT. One lemma per shared operation that says once everything the operation can do. -/

namespace Sys2Proof.Machine

variable (s : State)

/-! ### General registers -/

/-- x[0] reads 0 (10_state.md R21). -/
@[simp] theorem reg_zero : s.reg 0#5 = 0#32 := if_pos rfl

/-- Reading a register needs only the register file. -/
theorem reg_congr {s t : State} (h : t.gpr = s.gpr) (r : Reg) : t.reg r = s.reg r := by
  simp only [State.reg, h]

/-- A register after a register write (10_state.md R20, R21). -/
theorem reg_setReg (rd r : Reg) (v : Word) :
    (s.setReg rd v).reg r = if r = rd ∧ rd ≠ 0#5 then v else s.reg r := by
  unfold State.setReg State.reg
  by_cases hd : rd = 0#5
  · simp [hd]
  · by_cases hr : r = 0#5
    · subst hr
      simp [hd, Ne.symm hd]
    · have hne : ∀ x : Reg, x ≠ 0#5 → 1 ≤ x.toNat := fun x hx => by
        rcases Nat.eq_zero_or_pos x.toNat with h | h
        · exact absurd (BitVec.eq_of_toNat_eq (by simpa using h)) hx
        · exact h
      have h1 := hne rd hd
      have h2 := hne r hr
      simp only [hd, hr, if_false, ne_eq, not_false_eq_true, and_true, Vector.getElem_set]
      by_cases e : r = rd
      · simp [e]
      · rw [if_neg, if_neg e]
        intro h
        exact e (BitVec.eq_of_toNat_eq (by omega))

/-- A write of x[0] changes nothing (10_state.md R21). -/
@[simp] theorem setReg_zero (v : Word) : s.setReg 0#5 v = s := if_pos rfl

@[simp] theorem reg_schedule (n : NextPc) (r : Reg) : (s.schedule n).reg r = s.reg r := reg_congr (schedule_gpr s n) r

@[simp] theorem reg_takeException (e : Exc) (r : Reg) : (s.takeException e).reg r = s.reg r :=
  reg_congr (takeException_gpr s e) r

/-! ### The scheduler -/

/-- Where `Seq` goes: past the instruction, or to the target after a delay slot (43_control.md R181). -/
theorem schedule_seq_pc : (s.schedule .seq).pc = match s.pend with | none => s.pc + 4 | some p => p.target := by
  unfold State.schedule
  cases s.pend <;> rfl

/-! ### Coprocessor 0 -/

theorem getLsbD_withExl (w : Word) (i : Nat) : (withExl w).getLsbD i = (w.getLsbD i || decide (i = 1)) := by
  have key : ∀ k < 32, (0x00000002#32).getLsbD k = decide (k = 1) := by decide
  unfold withExl
  rw [BitVec.getLsbD_or]
  by_cases h : i < 32
  · rw [key i h]
  · rw [BitVec.getLsbD_of_ge _ _ (by omega), BitVec.getLsbD_of_ge _ _ (by omega)]
    simp; omega

theorem getLsbD_withoutExl (w : Word) (i : Nat) : (withoutExl w).getLsbD i = (w.getLsbD i && decide (i ≠ 1)) := by
  have key : ∀ k < 32, (0xFFFFFFFD#32).getLsbD k = decide (k ≠ 1) := by decide
  unfold withoutExl
  rw [BitVec.getLsbD_and]
  by_cases h : i < 32
  · rw [key i h]
  · rw [BitVec.getLsbD_of_ge w _ (by omega)]
    simp

theorem getLsbD_withBd (w : Word) (b : Bool) (i : Nat) :
    (withBd w b).getLsbD i = if i = 31 then b else w.getLsbD i := by
  have kset : ∀ k < 32, (0x80000000#32).getLsbD k = decide (k = 31) := by decide
  have kclear : ∀ k < 32, (0x7FFFFFFF#32).getLsbD k = decide (k ≠ 31) := by decide
  unfold withBd
  by_cases h : i < 32
  · cases b <;> by_cases h31 : i = 31 <;>
      simp [BitVec.getLsbD_and, BitVec.getLsbD_or, kset i h, kclear i h, h31]
  · have h31 : i ≠ 31 := by omega
    rw [if_neg h31, BitVec.getLsbD_of_ge w _ (by omega), BitVec.getLsbD_of_ge _ _ (by omega)]

theorem getLsbD_withExcCode (w : Word) (c : BitVec 5) (i : Nat) :
    (withExcCode w c).getLsbD i = if 2 ≤ i ∧ i ≤ 6 then c.getLsbD (i - 2) else w.getLsbD i := by
  have key : ∀ k < 32, (0xFFFFFF83#32).getLsbD k = decide (¬(2 ≤ k ∧ k ≤ 6)) := by decide
  unfold withExcCode
  by_cases h : i < 32
  · rw [BitVec.getLsbD_or, BitVec.getLsbD_and, BitVec.getLsbD_shiftLeft, BitVec.getLsbD_setWidth, key i h]
    by_cases hin : 2 ≤ i ∧ i ≤ 6
    · have h1 : i - 2 < 32 := by omega
      simp [hin, h, h1, show ¬ i < 2 by omega]
    · by_cases h2 : i < 2
      · simp [hin, h2]
      · rw [BitVec.getLsbD_of_ge c _ (by omega)]
        simp [hin]
  · have hout : ¬(2 ≤ i ∧ i ≤ 6) := by omega
    rw [if_neg hout, BitVec.getLsbD_of_ge w _ (by omega), BitVec.getLsbD_of_ge _ _ (by omega)]

/-- The exception code after it is written (10_state.md R30). -/
@[simp] theorem extractLsb_withExcCode (w : Word) (c : BitVec 5) : (withExcCode w c).extractLsb' 2 5 = c := by
  ext i hi
  rw [BitVec.getElem_extractLsb', getLsbD_withExcCode, if_pos (by omega), Nat.add_sub_cancel_left,
    BitVec.getLsbD_eq_getElem hi]

/-! ### Taking an exception -/

/-- Everything taking an exception can do (60_exceptions.md R244): deliver it, or end the run. -/
theorem takeException_cases (e : Exc) :
    (excDeliverable e = true ∧ s.exl = false ∧ s.handlerInstalled = true ∧
      s.takeException e = { s.recordException e with pc := handlerAddr }) ∨
    (excDeliverable e = true ∧ s.exl = true ∧ s.takeException e = (s.recordException e).fatal e .nestedException) ∨
    ((excDeliverable e = false ∨ (s.exl = false ∧ s.handlerInstalled = false)) ∧
      s.takeException e = (s.recordException e).fatal e (excReason e)) := by
  unfold State.takeException
  cases excDeliverable e <;> cases s.exl <;> cases s.handlerInstalled <;> simp

/-! ### Ends of instructions -/

/-- A control transfer runs outside a delay slot and raises in one (43_control.md R182). -/
theorem controlTransfer_cases (t : State) :
    (s.pend = none ∧ s.controlTransfer t = t) ∨
    (s.pend.isSome = true ∧ s.controlTransfer t = s.takeException .delaySlotControlTransfer) := by
  unfold State.controlTransfer
  cases s.pend <;> simp

/-- A memory write succeeds exactly when its check does (20_memory.md R58). -/
theorem memWrite_cases (a : Word) (w : Width) (v : Word) :
    (s.check a w .store = true ∧ s.memWrite a w v = .ok { s with mem := Memory.store s.mem a w v }) ∨
    (s.check a w .store = false ∧ s.memWrite a w v = .error (.addressErrorStore a)) := by
  unfold State.memWrite
  cases s.check a w .store <;> simp

/-- A memory read succeeds exactly when its check does (20_memory.md R57). -/
theorem memRead_cases (a : Word) (w : Width) :
    (s.check a w .load = true ∧ s.memRead a w = .ok (Memory.load s.mem a w)) ∨
    (s.check a w .load = false ∧ s.memRead a w = .error (.addressErrorLoad a)) := by
  unfold State.memRead
  cases s.check a w .load <;> simp

/-- An access of an instruction can never be permitted to store where it could be fetched (20_memory.md R52, R67). -/
theorem check_store_not_text {a : Word} {w : Width} (h : s.check a w .store = true) : isTextSegment a = false := by
  unfold State.check at h
  unfold isTextSegment
  cases hs : segmentOf a <;> simp_all [segPermits]

end Sys2Proof.Machine
end

