-- ==== Sys2Proof/Laws/Effects.lean ====
section
/-! SUPPORT. One lemma per way an instruction ends: everything it changes and leaves unchanged, in the terms of Safety. -/

namespace Sys2Proof.Machine

variable (s : State)

/-- After `Seq` control is at the next instruction, or at the target after a delay slot (43_control.md R181). -/
theorem advanced_seq {s t : State} (hpc : t.pc = s.pc) (hp : t.pend = s.pend) : Advanced s (t.schedule .seq) := by
  refine ⟨schedule_seq_pend t, fun h => ?_, fun p h => ?_⟩
  · rw [schedule_seq_pc, hp, h, hpc]
  · rw [schedule_seq_pc, hp, h]

/-- Nothing but `Seq`. -/
theorem noEffect_seq : NoEffect s (s.schedule .seq) := by
  refine ⟨fun r => by simp, by simp [SameHiLo], by simp [SameCp0], fun a => by simp, by simp, ?_, advanced_seq rfl rfl⟩
  simp [SameRest, SameHost, SameRun, SameConsole]

/-- One register write and `Seq`. -/
theorem regEffect_retire (rd : Reg) (v : Word) : RegEffect s (s.retire rd v) rd v := by
  unfold State.retire
  refine ⟨fun r => by simp [reg_setReg], by simp [SameHiLo], by simp [SameCp0], fun a => by simp, by simp, ?_,
    advanced_seq (by simp) (by simp)⟩
  simp [SameRest, SameHost, SameRun, SameConsole]

/-- A write of HI and LO and `Seq`. -/
theorem hiLoEffect_retireHiLo {hi lo : Word} {P : Word → Word → Prop} (h : P hi lo) :
    HiLoEffect s (s.retireHiLo hi lo) P := by
  unfold State.retireHiLo
  refine ⟨fun r => by rw [reg_schedule]; rfl, by simpa using h, by simp [SameCp0], fun a => by simp, by simp, ?_,
    advanced_seq rfl rfl⟩
  simp [SameRest, SameHost, SameRun, SameConsole]

/-- The bytes a store writes, and that it writes no other: the addresses it names are distinct while there are at most 2^32. -/
theorem Memory.byteAt_storeBytes {m : Memory} (hm : Memory.wf m = true) (a : Word) (bs : List Byte)
    (hlen : bs.length ≤ 2 ^ 32) (i : Nat) (b : Byte) (hi : bs[i]? = some b) :
    Memory.byteAt (Memory.storeBytes m a bs) (a + BitVec.ofNat 32 i) = b := by
  induction bs generalizing m a i with
  | nil => simp at hi
  | cons x rest ih =>
    simp only [List.length_cons] at hlen
    cases i with
    | zero =>
      simp only [List.getElem?_cons_zero, Option.some.injEq] at hi
      subst hi
      unfold Memory.storeBytes
      rw [Memory.byteAt_storeBytes_of_ne (Memory.wf_setByteAt hm a x) _ _ rest, Memory.byteAt_setByteAt hm]
      · simp
      · intro j hj h
        have := congrArg BitVec.toNat h
        simp only [BitVec.toNat_add, BitVec.toNat_ofNat] at this
        have h1 : BitVec.toNat (1 : Word) = 1 := rfl
        have ha := a.isLt
        rw [h1] at this
        omega
    | succ i =>
      simp only [List.getElem?_cons_succ] at hi
      unfold Memory.storeBytes
      have key := ih (Memory.wf_setByteAt hm a x) (a + 1) (by omega) i hi
      rwa [show a + BitVec.ofNat 32 (i + 1) = a + 1 + BitVec.ofNat 32 i by
        rw [BitVec.add_assoc, ← BitVec.ofNat_add_ofNat, BitVec.add_comm (BitVec.ofNat 32 i)]; rfl]

/-- The bytes written at `a` and no other. -/
theorem bytesWritten_storeBytes {s t : State} (hm : Memory.wf s.mem = true) (a : Word) (bs : List Byte)
    (hlen : bs.length ≤ 2 ^ 32) (ht : t.mem = Memory.storeBytes s.mem a bs) : BytesWritten s t a bs := by
  refine ⟨fun i b h => ?_, fun x h => ?_⟩
  · rw [ht]; exact Memory.byteAt_storeBytes hm a bs hlen i b h
  · rw [ht]; exact Memory.byteAt_storeBytes_of_ne hm a x bs h

/-- A store and `Seq`. -/
theorem storeEffect_storeBytes (hm : Memory.wf s.mem = true) (a : Word) (bs : List Byte) (hlen : bs.length ≤ 2 ^ 32) :
    StoreEffect s ({ s with mem := Memory.storeBytes s.mem a bs }.schedule .seq) a bs := by
  refine ⟨fun r => by rw [reg_schedule]; rfl, by simp [SameHiLo], by simp [SameCp0],
    bytesWritten_storeBytes hm a bs hlen (by simp), by simp, ?_, advanced_seq rfl rfl⟩
  simp [SameRest, SameHost, SameRun, SameConsole]

/-- A pending transfer. -/
theorem transferEffect_branch (target : Word) : TransferEffect s (s.schedule (.branch target)) target := by
  refine ⟨fun r => by simp, by simp [SameHiLo], by simp [SameCp0], fun a => by simp, by simp, ?_, rfl, rfl⟩
  simp [SameRest, SameHost, SameRun, SameConsole]

/-- A link register write and a pending transfer. -/
theorem linkEffect_branch (rd : Reg) (target : Word) :
    LinkEffect s ((s.setReg rd s.afterSlot).schedule (.branch target)) rd target := by
  refine ⟨fun r => by simp [reg_setReg, State.afterSlot], by simp [SameHiLo], by simp [SameCp0], fun a => by simp, by simp, ?_,
    by simp, by simp⟩
  simp [SameRest, SameHost, SameRun, SameConsole]

/-- The end of a run. -/
theorem haltEffect_halt (code : Word) : HaltEffect s (s.schedule (.halt code)) code := by
  refine ⟨fun r => by simp, by simp [SameHiLo], by simp [SameCp0], fun a => by simp, by simp, ?_⟩
  simp [SameHost, SameConsole]

end Sys2Proof.Machine
end

