-- ==== Sys2Proof/Laws/Exec.lean ====
section
/-! SUPPORT. Everything one instruction can do, said once for all 85: `exec_cases`. A claim about every instruction takes it
apart instead of unfolding `exec`. -/

namespace Sys2Proof.Machine

/-- `b` is `s` but for the host's answers that are used up. -/
def Answered (s b : State) : Prop :=
  b = { s with consoleInts := b.consoleInts, consoleStrs := b.consoleStrs, drawCount := b.drawCount }

/-- The memory of `b` is that of `s`, or that of `s` after a store of bytes each of which may be stored. -/
def Stored (s b : State) : Prop :=
  b.mem = s.mem ∨ ∃ (a : Word) (bs : List Byte), b.mem = Memory.storeBytes s.mem a bs ∧ bs.length ≤ 2 ^ 32 ∧
    ∀ k < bs.length, s.check (a + BitVec.ofNat 32 k) .byte .store = true

/-- `b` is `s` after the work of the instruction `i`, before control moves on. -/
structure Worked (i : Instr) (s b : State) : Prop where
  /-- What no instruction's work touches. -/
  frame : b = { s with
    gpr := b.gpr, hi := b.hi, lo := b.lo, badVAddr := b.badVAddr, status := b.status, cause := b.cause, epc := b.epc
    llBit := b.llBit, mem := b.mem, heapTop := b.heapTop, consoleOut := b.consoleOut, consoleInts := b.consoleInts
    consoleStrs := b.consoleStrs, drawCount := b.drawCount }
  /-- Memory. -/
  stored : Stored s b
  /-- The mode and the exception registers. -/
  cp0 : i.isMtc0 = false → (i = .eret ∧ b.status = withoutExl s.status ∨ b.status = s.status) ∧ b.cause = s.cause ∧
    b.epc = s.epc ∧ b.badVAddr = s.badVAddr
  /-- The heap's top grows by a multiple of 4 and stays inside the data segment. -/
  heap : b.heapTop = s.heapTop ∨ ∃ r : Nat, r % 4 = 0 ∧ s.heapTop.toNat + r ≤ 0x80000000 ∧
    b.heapTop.toNat = s.heapTop.toNat + r
  /-- LLbit. -/
  link : i.writesLink = false → b.llBit = s.llBit

/-- The outcome of the instruction `i` when it does not raise: a control transfer comes here only outside a delay slot. -/
def NextOf (i : Instr) (s : State) (n : NextPc) : Prop :=
  (i.isControlTransfer = false ∧ (n = .seq ∨ n = .halt 0#32)) ∨
  (i.isControlTransfer = true ∧ s.pend = none ∧ (i = .eret ∧ n = .ret s.epc ∨ i ≠ .eret ∧ ∃ t, n = .branch t))

/-- `exec` raises an exception having done nothing but use up an answer of the host. -/
def Raises (i : Instr) (s : State) : Prop :=
  ∃ b e, exec i s = .next (b.takeException e) ∧ Answered s b ∧
    (i.isControlTransfer = true ↔ e = .delaySlotControlTransfer) ∧ (i.isControlTransfer = true → s.pend.isSome = true)

/-- `exec` does the instruction's work and moves on. -/
def Works (i : Instr) (s : State) : Prop := ∃ b n, exec i s = .next (b.schedule n) ∧ Worked i s b ∧ NextOf i s n

variable {i : Instr} {s : State}

/-! ### The pieces -/

theorem answered_self (s : State) : Answered s s := rfl

theorem raises_with {b : State} {e : Exc} (h : exec i s = .next (b.takeException e)) (hb : Answered s b)
    (hi : i.isControlTransfer = false) (he : e ≠ .delaySlotControlTransfer) : Raises i s :=
  ⟨b, e, h, hb, by simp [hi, he], by simp [hi]⟩

theorem raises_of {e : Exc} (h : exec i s = .next (s.takeException e)) (hi : i.isControlTransfer = false)
    (he : e ≠ .delaySlotControlTransfer) : Raises i s :=
  raises_with h rfl hi he

theorem worked_self (i : Instr) (s : State) : Worked i s s :=
  ⟨rfl, .inl rfl, fun _ => ⟨.inr rfl, rfl, rfl, rfl⟩, .inl rfl, fun _ => rfl⟩

/-- Work that changes only the general registers, HI, LO, the console and the draws. -/
theorem worked_of {b : State} (h : b = { s with
    gpr := b.gpr, hi := b.hi, lo := b.lo, consoleOut := b.consoleOut, consoleInts := b.consoleInts
    consoleStrs := b.consoleStrs, drawCount := b.drawCount }) : Worked i s b := by
  rw [h]
  exact ⟨rfl, .inl rfl, fun _ => ⟨.inr rfl, rfl, rfl, rfl⟩, .inl rfl, fun _ => rfl⟩

theorem setReg_eq (s : State) (r : Reg) (v : Word) : s.setReg r v = { s with gpr := (s.setReg r v).gpr } := by
  unfold State.setReg
  split <;> rfl

theorem worked_setReg (r : Reg) (v : Word) : Worked i s (s.setReg r v) := by
  rw [setReg_eq]
  exact worked_of rfl

theorem works_seq {b : State} (h : exec i s = .next (b.schedule .seq)) (hw : Worked i s b)
    (hi : i.isControlTransfer = false) : Works i s :=
  ⟨b, .seq, h, hw, .inl ⟨hi, .inl rfl⟩⟩

theorem works_retire {rd : Reg} {v : Word} (h : exec i s = .next (s.retire rd v)) (hi : i.isControlTransfer = false) :
    Works i s :=
  works_seq h (worked_setReg rd v) hi

theorem cases_retireChecked {rd : Reg} {r : BitVec 33} (h : exec i s = .next (s.retireChecked rd r))
    (hi : i.isControlTransfer = false) : Raises i s ∨ Works i s := by
  unfold State.retireChecked at h
  split at h
  · exact .inl (raises_of h hi (by simp))
  · exact .inr (works_retire h hi)

theorem cases_trapIf {c : Bool} {code : BitVec 10} (h : exec i s = .next (s.trapIf c code))
    (hi : i.isControlTransfer = false) : Raises i s ∨ Works i s := by
  unfold State.trapIf at h
  split at h
  · exact .inl (raises_of h hi (by simp))
  · exact .inr (works_seq h (worked_self i s) hi)

theorem cases_finishReg {rd : Reg} {x : Except Exc Word} (h : exec i s = .next (s.finishReg rd x))
    (hi : i.isControlTransfer = false) (hx : ∀ e, x = .error e → e ≠ .delaySlotControlTransfer) : Raises i s ∨ Works i s := by
  cases x with
  | error e => exact .inl (raises_of h hi (hx e rfl))
  | ok v => exact .inr (works_retire h hi)

theorem cases_finish {x : Except Exc State} (h : exec i s = .next (s.finish x)) (hi : i.isControlTransfer = false)
    (hx : ∀ e, x = .error e → e ≠ .delaySlotControlTransfer) (hw : ∀ t, x = .ok t → Worked i s t) :
    Raises i s ∨ Works i s := by
  cases x with
  | error e => exact .inl (raises_of h hi (hx e rfl))
  | ok t => exact .inr (works_seq h (hw t rfl) hi)

theorem cases_transfer {b : State} {t : Word} (h : exec i s = .next (s.controlTransfer (b.schedule (.branch t))))
    (hw : Worked i s b) (hi : i.isControlTransfer = true) (he : i ≠ .eret) : Raises i s ∨ Works i s := by
  rcases controlTransfer_cases s (b.schedule (.branch t)) with ⟨hp, hc⟩ | ⟨hp, hc⟩
  · exact .inr ⟨b, .branch t, hc ▸ h, hw, .inr ⟨hi, hp, .inr ⟨he, t, rfl⟩⟩⟩
  · exact .inl ⟨s, _, hc ▸ h, rfl, by simp [hi], fun _ => hp⟩

/-! ### Loads and stores -/

theorem memRead_error {a : Word} {w : Width} {e : Exc} (h : s.memRead a w = .error e) : e = .addressErrorLoad a := by
  rcases memRead_cases s a w with ⟨_, hx⟩ | ⟨_, hx⟩ <;> rw [hx] at h <;> cases h
  rfl

theorem map_error {α β : Type} {f : α → β} {x : Except Exc α} {e : Exc} (h : x.map f = .error e) : x = .error e := by
  cases x <;> simp_all [Except.map]

theorem map_ok {α β : Type} {f : α → β} {x : Except Exc α} {y : β} (h : x.map f = .ok y) : ∃ z, x = .ok z ∧ y = f z := by
  cases x <;> simp_all [Except.map]

/-- A permitted store of a width permits each of its bytes (20_memory.md R52). -/
theorem check_bytes {a : Word} {w : Width} (h : s.check a w .store = true) :
    ∀ k < widthBytes w, s.check (a + BitVec.ofNat 32 k) .byte .store = true := by
  have hal : a.toNat % widthBytes w = 0 := by
    unfold State.check at h
    simp only [Bool.and_eq_true] at h
    obtain ⟨⟨⟨h, _⟩, _⟩, _⟩ := h
    cases w
    · simp [widthBytes]; omega
    · have := congrArg BitVec.toNat (beq_iff_eq.1 h); simpa [widthBytes] using this
    · have := congrArg BitVec.toNat (beq_iff_eq.1 h); simpa [widthBytes] using this
  intro k hk
  have hseg : segmentOf (a + BitVec.ofNat 32 k) = segmentOf a := by
    have ha := a.isLt
    have : (a + BitVec.ofNat 32 k).toNat = a.toNat + k := by
      rw [BitVec.toNat_add, BitVec.toNat_ofNat]
      cases w <;> simp only [widthBytes] at * <;> omega
    unfold segmentOf
    rw [this]
    cases w <;> simp only [widthBytes] at * <;> split_ifs <;> first | rfl | omega
  unfold State.check at h ⊢
  rw [hseg]
  simp only [Bool.and_eq_true] at h ⊢
  exact ⟨⟨⟨rfl, h.1.1.2⟩, h.1.2⟩, h.2⟩

theorem length_lowBytes (v : Word) (w : Width) : (lowBytes v w).length = widthBytes w := by cases w <;> rfl

theorem worked_store {a : Word} {bs : List Byte} (hl : bs.length ≤ 2 ^ 32)
    (hc : ∀ k < bs.length, s.check (a + BitVec.ofNat 32 k) .byte .store = true) :
    Worked i s { s with mem := Memory.storeBytes s.mem a bs } :=
  ⟨rfl, .inr ⟨a, bs, rfl, hl, hc⟩, fun _ => ⟨.inr rfl, rfl, rfl, rfl⟩, .inl rfl, fun _ => rfl⟩

theorem worked_memWrite {a : Word} {w : Width} {v : Word} {t : State} (h : s.memWrite a w v = .ok t) : Worked i s t := by
  rcases memWrite_cases s a w v with ⟨hc, hx⟩ | ⟨_, hx⟩ <;> rw [hx] at h <;> cases h
  refine worked_store ?_ ?_
  · rw [length_lowBytes]; cases w <;> simp [widthBytes]
  · rw [length_lowBytes]; exact check_bytes hc

theorem memWrite_error {a : Word} {w : Width} {v : Word} {e : Exc} (h : s.memWrite a w v = .error e) :
    e = .addressErrorStore a := by
  rcases memWrite_cases s a w v with ⟨_, hx⟩ | ⟨_, hx⟩ <;> rw [hx] at h <;> cases h
  rfl

theorem memReadPartial_error {a : Word} {e : Exc} (h : s.memReadPartial a = .error e) : e = .addressErrorLoad a := by
  unfold State.memReadPartial at h
  split at h <;> cases h
  rfl

theorem memWritePartial_error {a b : Word} {bs : List Byte} {e : Exc} (h : s.memWritePartial a b bs = .error e) :
    e = .addressErrorStore a := by
  unfold State.memWritePartial at h
  split at h <;> cases h
  rfl

/-- The aligned word's address and the byte index put the address together again (20_memory.md R60). -/
theorem wordBase_add (a : Word) : wordBase a + BitVec.ofNat 32 (byteIndex a) = a ∧ byteIndex a < 4 := by
  have hb : byteIndex a = a.toNat % 4 := by simp [byteIndex]
  have hw : wordBase a = BitVec.ofNat 32 (a.toNat / 4 * 4) := by
    have hs : wordBase a = (a >>> 2) <<< 2 := by
      unfold wordBase
      apply BitVec.eq_of_getLsbD_eq
      intro j hj
      have key : ∀ k < 32, (0xFFFFFFFC#32).getLsbD k = decide (2 ≤ k) := by decide
      rw [BitVec.getLsbD_and, key j hj, BitVec.getLsbD_shiftLeft, BitVec.getLsbD_ushiftRight]
      by_cases h2 : j < 2
      · simp [h2]
      · simp [hj, h2, show 2 ≤ j by omega, show 2 + (j - 2) = j by omega]
    rw [hs]
    apply BitVec.eq_of_toNat_eq
    have := a.isLt
    simp [Nat.shiftLeft_eq, Nat.shiftRight_eq_div_pow]
  have ha := a.isLt
  refine ⟨?_, by omega⟩
  rw [hw, hb, BitVec.ofNat_add_ofNat]
  apply BitVec.eq_of_toNat_eq
  simp
  omega

/-- A partial-word store is permitted byte by byte: all its bytes lie in the word that was checked. -/
theorem worked_memWritePartial {a start : Word} {bs : List Byte} {j : Nat} {t : State}
    (hs : start = wordBase a + BitVec.ofNat 32 j) (hj : j + bs.length ≤ 4) (h : s.memWritePartial a start bs = .ok t) :
    Worked i s t := by
  unfold State.memWritePartial at h
  split at h
  · rename_i hc
    cases h
    refine worked_store (by omega) fun k hk => ?_
    rw [hs, BitVec.add_assoc, BitVec.ofNat_add_ofNat]
    exact check_bytes hc (j + k) (by simp [widthBytes]; omega)
  · cases h

/-! ### Syscall services -/

theorem readString_error (fuel : Nat) (a : Word) {e : Exc} (h : s.readString fuel a = .error e) :
    e ≠ .delaySlotControlTransfer := by
  induction fuel generalizing a with
  | zero => cases h; simp
  | succ n ih =>
    unfold State.readString at h
    split at h
    · rename_i e' he
      cases h
      rw [memRead_error he]; simp
    · split at h
      · cases h
      · exact ih _ (map_error h)

theorem firstBadStore_none (bs : List Byte) (a : Word) (h : s.firstBadStore a bs = none) :
    ∀ k < bs.length, s.check (a + BitVec.ofNat 32 k) .byte .store = true := by
  induction bs generalizing a with
  | nil => intro k hk; simp at hk
  | cons b rest ih =>
    unfold State.firstBadStore at h
    split at h
    · rename_i hc
      intro k hk
      cases k with
      | zero => simpa using hc
      | succ k =>
        rw [show a + BitVec.ofNat 32 (k + 1) = a + 1 + BitVec.ofNat 32 k by
          rw [BitVec.add_assoc, ← BitVec.ofNat_add_ofNat, BitVec.add_comm (BitVec.ofNat 32 k)]; rfl]
        exact ih _ h k (by simpa using hk)
    · cases h

/-- Every service raises with nothing done, works, or halts. -/
theorem cases_service : Raises .syscall s ∨ Works .syscall s := by
  have key : exec .syscall s = .next (s.service (s.reg regV0)) := rfl
  generalize s.reg regV0 = n at key
  unfold State.service at key
  split at key
  · exact .inr (works_seq key (worked_of rfl) rfl)
  split at key
  · exact cases_finish key rfl (fun e he => readString_error _ _ (map_error he))
      (fun t ht => by obtain ⟨z, _, rfl⟩ := map_ok ht; exact worked_of rfl)
  split at key
  · obtain ⟨v, l, n, htk⟩ : ∃ v l n, s.takeConsoleInt = (v, { s with consoleInts := l, drawCount := n }) := by
      unfold State.takeConsoleInt
      split <;> exact ⟨_, _, _, rfl⟩
    unfold State.serviceReadInt at key
    rw [htk] at key
    cases v with
    | some v =>
      refine .inr (works_seq key ?_ rfl)
      rw [setReg_eq]
      exact worked_of rfl
    | none => exact .inl (raises_with key rfl rfl (by simp))
  split at key
  · unfold State.serviceReadString at key
    split at key
    · exact .inr (works_seq key (worked_self _ s) rfl)
    · obtain ⟨str, l, n, htk⟩ : ∃ str l n, s.takeConsoleStr = (str, { s with consoleStrs := l, drawCount := n }) := by
        unfold State.takeConsoleStr
        split <;> exact ⟨_, _, _, rfl⟩
      rw [htk] at key
      simp only at key
      split at key
      · exact .inl (raises_with key rfl rfl (by simp))
      · rename_i hfb
        refine .inr (works_seq key ?_ rfl)
        have hlen : (boundedString (s.reg regA1).toInt.toNat str).length ≤ 2 ^ 32 := by
          have := BitVec.toInt_lt (x := s.reg regA1)
          unfold boundedString
          simp
          omega
        exact ⟨rfl, .inr ⟨_, _, rfl, hlen, fun k hk => firstBadStore_none _ _ hfb k hk⟩,
          fun _ => ⟨.inr rfl, rfl, rfl, rfl⟩, .inl rfl, fun _ => rfl⟩
  split at key
  · unfold State.serviceAllocate at key
    split at key
    · exact .inl (raises_of key rfl (by simp))
    split at key
    · exact .inl (raises_of key rfl (by simp))
    · rename_i hh
      refine .inr (works_seq key ?_ rfl)
      rw [setReg_eq]
      refine ⟨rfl, .inl rfl, fun _ => ⟨.inr rfl, rfl, rfl, rfl⟩,
        .inr ⟨roundUp4 (s.reg regA0).toNat, by unfold roundUp4; omega, by omega, ?_⟩, fun _ => rfl⟩
      simp
      omega
  split at key
  · exact .inr ⟨s, _, key, worked_self _ s, .inl ⟨rfl, .inr rfl⟩⟩
  · exact .inl (raises_of key rfl (by simp))

/-! ### All of them -/

/-- Everything an instruction can do: raise an exception with nothing done, or do its work and move on. -/
theorem exec_cases (i : Instr) (s : State) : Raises i s ∨ Works i s := by
  have lerr : ∀ {a : Word} {w : Width} {f : Word → Word} (e : Exc), (s.memRead a w).map f = .error e →
      e ≠ .delaySlotControlTransfer := fun e he => by rw [memRead_error (map_error he)]; simp
  have perr : ∀ {a : Word} {f : Word → Word} (e : Exc), (s.memReadPartial a).map f = .error e →
      e ≠ .delaySlotControlTransfer := fun e he => by rw [memReadPartial_error (map_error he)]; simp
  cases i with
  | add rd rs rt => exact cases_retireChecked rfl rfl
  | sub rd rs rt => exact cases_retireChecked rfl rfl
  | addi rt rs imm => exact cases_retireChecked rfl rfl
  | movz rd rs rt =>
    by_cases h : s.reg rt = 0#32
    · exact .inr (works_retire (rd := rd) (v := s.reg rs) (congrArg Host.Outcome.next (if_pos h)) rfl)
    · exact .inr (works_seq (b := s) (congrArg Host.Outcome.next (if_neg h)) (worked_self _ s) rfl)
  | movn rd rs rt =>
    by_cases h : s.reg rt ≠ 0#32
    · exact .inr (works_retire (rd := rd) (v := s.reg rs) (congrArg Host.Outcome.next (if_pos h)) rfl)
    · exact .inr (works_seq (b := s) (congrArg Host.Outcome.next (if_neg h)) (worked_self _ s) rfl)
  | nop => exact .inr (works_seq rfl (worked_self _ s) rfl)
  | mult rs rt => exact .inr (works_seq (b := { s with hi := _, lo := _ }) rfl (worked_of rfl) rfl)
  | multu rs rt => exact .inr (works_seq (b := { s with hi := _, lo := _ }) rfl (worked_of rfl) rfl)
  | madd rs rt => exact .inr (works_seq (b := { s with hi := _, lo := _ }) rfl (worked_of rfl) rfl)
  | maddu rs rt => exact .inr (works_seq (b := { s with hi := _, lo := _ }) rfl (worked_of rfl) rfl)
  | msub rs rt => exact .inr (works_seq (b := { s with hi := _, lo := _ }) rfl (worked_of rfl) rfl)
  | msubu rs rt => exact .inr (works_seq (b := { s with hi := _, lo := _ }) rfl (worked_of rfl) rfl)
  | mthi rs => exact .inr (works_seq (b := { s with hi := _, lo := _ }) rfl (worked_of rfl) rfl)
  | mtlo rs => exact .inr (works_seq (b := { s with hi := _, lo := _ }) rfl (worked_of rfl) rfl)
  | div rs rt =>
    by_cases h : s.reg rt = 0#32
    · exact .inr (works_seq (b := { s with drawCount := _, hi := _, lo := _ }) (congrArg Host.Outcome.next (if_pos h))
        (worked_of rfl) rfl)
    · exact .inr (works_seq (b := { s with hi := _, lo := _ }) (congrArg Host.Outcome.next (if_neg h)) (worked_of rfl) rfl)
  | divu rs rt =>
    by_cases h : s.reg rt = 0#32
    · exact .inr (works_seq (b := { s with drawCount := _, hi := _, lo := _ }) (congrArg Host.Outcome.next (if_pos h))
        (worked_of rfl) rfl)
    · exact .inr (works_seq (b := { s with hi := _, lo := _ }) (congrArg Host.Outcome.next (if_neg h)) (worked_of rfl) rfl)
  | mul rd rs rt =>
    refine .inr (works_seq (b := { (State.setReg { s with drawCount := s.drawCount + 1 } rd _) with hi := _, lo := _ }) rfl ?_ rfl)
    rw [setReg_eq]
    exact worked_of rfl
  | lb rt rs imm => exact cases_finishReg rfl rfl lerr
  | lh rt rs imm => exact cases_finishReg rfl rfl lerr
  | lbu rt rs imm => exact cases_finishReg rfl rfl (fun e he => by rw [memRead_error he]; simp)
  | lhu rt rs imm => exact cases_finishReg rfl rfl (fun e he => by rw [memRead_error he]; simp)
  | lw rt rs imm => exact cases_finishReg rfl rfl (fun e he => by rw [memRead_error he]; simp)
  | lwl rt rs imm => exact cases_finishReg rfl rfl perr
  | lwr rt rs imm => exact cases_finishReg rfl rfl perr
  | sb rt rs imm => exact cases_finish rfl rfl (fun e he => by rw [memWrite_error he]; simp) (fun t ht => worked_memWrite ht)
  | sh rt rs imm => exact cases_finish rfl rfl (fun e he => by rw [memWrite_error he]; simp) (fun t ht => worked_memWrite ht)
  | sw rt rs imm => exact cases_finish rfl rfl (fun e he => by rw [memWrite_error he]; simp) (fun t ht => worked_memWrite ht)
  | swl rt rs imm =>
    refine cases_finish rfl rfl (fun e he => by rw [memWritePartial_error he]; simp) (fun t ht => ?_)
    exact worked_memWritePartial (j := 0) (by simp) (by
      have := (wordBase_add (s.ea rs imm)).2
      simp [leftBytes, bytesOfWord]) ht
  | swr rt rs imm =>
    refine cases_finish rfl rfl (fun e he => by rw [memWritePartial_error he]; simp) (fun t ht => ?_)
    exact worked_memWritePartial (j := byteIndex (s.ea rs imm)) (wordBase_add _).1.symm (by
      have := (wordBase_add (s.ea rs imm)).2
      simp [rightBytes, bytesOfWord]; omega) ht
  | ll rt rs imm =>
    refine cases_finish rfl rfl (fun e he => by rw [memRead_error (map_error he)]; simp) (fun t ht => ?_)
    obtain ⟨v, _, rfl⟩ := map_ok ht
    rw [setReg_eq]
    exact ⟨rfl, .inl rfl, fun _ => ⟨.inr rfl, rfl, rfl, rfl⟩, .inl rfl, nofun⟩
  | sc rt rs imm =>
    refine cases_finish rfl rfl (fun e he => by rw [memWrite_error (map_error he)]; simp) (fun t ht => ?_)
    obtain ⟨u, hu, rfl⟩ := map_ok ht
    split
    · have hw := worked_memWrite (i := .sc rt rs imm) hu
      rw [setReg_eq]
      exact ⟨by rw [hw.frame], hw.stored, hw.cp0, hw.heap, nofun⟩
    · rw [setReg_eq]
      exact ⟨rfl, .inl rfl, fun _ => ⟨.inr rfl, rfl, rfl, rfl⟩, .inl rfl, nofun⟩
  | beq rs rt imm => exact cases_transfer rfl (worked_self _ s) rfl (by simp)
  | bne rs rt imm => exact cases_transfer rfl (worked_self _ s) rfl (by simp)
  | blez rs imm => exact cases_transfer rfl (worked_self _ s) rfl (by simp)
  | bgtz rs imm => exact cases_transfer rfl (worked_self _ s) rfl (by simp)
  | bltz rs imm => exact cases_transfer rfl (worked_self _ s) rfl (by simp)
  | bgez rs imm => exact cases_transfer rfl (worked_self _ s) rfl (by simp)
  | bltzal rs imm => exact cases_transfer rfl (worked_setReg _ _) rfl (by simp)
  | bgezal rs imm => exact cases_transfer rfl (worked_setReg _ _) rfl (by simp)
  | j index => exact cases_transfer rfl (worked_self _ s) rfl (by simp)
  | jal index => exact cases_transfer rfl (worked_setReg _ _) rfl (by simp)
  | jr rs => exact cases_transfer rfl (worked_self _ s) rfl (by simp)
  | jalr rd rs => exact cases_transfer rfl (worked_setReg _ _) rfl (by simp)
  | syscall => exact cases_service
  | brk code => exact .inl (raises_of rfl rfl (by simp))
  | teq rs rt code => exact cases_trapIf rfl rfl
  | tne rs rt code => exact cases_trapIf rfl rfl
  | tge rs rt code => exact cases_trapIf rfl rfl
  | tgeu rs rt code => exact cases_trapIf rfl rfl
  | tlt rs rt code => exact cases_trapIf rfl rfl
  | tltu rs rt code => exact cases_trapIf rfl rfl
  | teqi rs imm => exact cases_trapIf rfl rfl
  | tnei rs imm => exact cases_trapIf rfl rfl
  | tgei rs imm => exact cases_trapIf rfl rfl
  | tgeiu rs imm => exact cases_trapIf rfl rfl
  | tlti rs imm => exact cases_trapIf rfl rfl
  | tltiu rs imm => exact cases_trapIf rfl rfl
  | eret =>
    rcases controlTransfer_cases s s.returnFromException with ⟨hp, hc⟩ | ⟨hp, hc⟩
    · refine .inr ⟨{ s with status := withoutExl s.status, llBit := false }, .ret s.epc, congrArg Host.Outcome.next hc, ?_,
        .inr ⟨rfl, hp, .inl ⟨rfl, rfl⟩⟩⟩
      exact ⟨rfl, .inl rfl, fun _ => ⟨.inl ⟨rfl, rfl⟩, rfl, rfl, rfl⟩, .inl rfl, nofun⟩
    · exact .inl ⟨s, _, congrArg Host.Outcome.next hc, rfl, ⟨fun _ => rfl, fun _ => rfl⟩, fun _ => hp⟩
  | mfc0 rt rd =>
    cases h : s.cp0 rd with
    | none => exact .inl (raises_of (e := .invalidOpcode) (by simp [exec, execMfc0, h]) rfl (by simp))
    | some v => exact .inr (works_retire (rd := rt) (v := v) (by simp [exec, execMfc0, h]) rfl)
  | mtc0 rt rd =>
    cases h : s.setCp0 rd (s.reg rt) with
    | none => exact .inl (raises_of (e := .invalidOpcode) (by simp [exec, execMtc0, h]) rfl (by simp))
    | some t =>
      refine .inr (works_seq (b := t) (by simp [exec, execMtc0, h]) ?_ rfl)
      have hm : Instr.isMtc0 (.mtc0 rt rd) = true := rfl
      unfold State.setCp0 at h
      split_ifs at h <;> cases h <;>
        exact ⟨rfl, .inl rfl, fun h => (by rw [hm] at h; cases h), .inl rfl, fun _ => rfl⟩
  | _ => exact .inr (works_retire rfl rfl)

/-! ### What follows from the three shapes -/

/-- The fields an answer of the host leaves as they were. -/
theorem answered_fields {s b : State} (h : Answered s b) :
    b.gpr = s.gpr ∧ b.pc = s.pc ∧ b.pend = s.pend ∧ b.hi = s.hi ∧ b.lo = s.lo ∧ b.badVAddr = s.badVAddr ∧
    b.status = s.status ∧ b.cause = s.cause ∧ b.epc = s.epc ∧ b.llBit = s.llBit ∧ b.mem = s.mem ∧ b.runState = s.runState ∧
    b.faultInfo = s.faultInfo ∧ b.breakpoints = s.breakpoints ∧ b.skipBreak = s.skipBreak ∧ b.heapTop = s.heapTop ∧
    b.exitCode = s.exitCode ∧ b.image = s.image ∧ b.commands = s.commands ∧ b.consoleOut = s.consoleOut ∧ b.cfg = s.cfg := by
  rw [h]
  simp only [and_self]

/-- The fields no instruction's work touches. -/
theorem worked_fields {b : State} (h : Worked i s b) :
    b.pc = s.pc ∧ b.pend = s.pend ∧ b.runState = s.runState ∧ b.faultInfo = s.faultInfo ∧ b.exitCode = s.exitCode ∧
    b.image = s.image ∧ b.commands = s.commands ∧ b.cfg = s.cfg ∧ b.breakpoints = s.breakpoints ∧ b.skipBreak = s.skipBreak := by
  rw [h.frame]
  simp only [and_self]

/-- An exception ends the run where it is, or goes to the handler with the run as it was (60_exceptions.md R245, R246). -/
theorem takeException_end (s : State) (e : Exc) :
    ((s.takeException e).pc = s.pc ∧ (s.takeException e).runState = .faulted ∧
      ∃ r, (s.takeException e).faultInfo = some
          { addr := s.pc, reason := r, kind := excKind e, excCode := excCode e, badAddr := excBadAddr e
            snapshot := (s.takeException e).snapshot } ∧ (r = excReason e ∨ r = .nestedException)) ∨
    ((s.takeException e).pc = handlerAddr ∧ (s.takeException e).runState = s.runState ∧
      (s.takeException e).faultInfo = s.faultInfo) := by
  rcases takeException_cases s e with ⟨_, _, _, h⟩ | ⟨_, _, h⟩ | ⟨_, h⟩ <;> rw [h]
  · exact .inr ⟨rfl, rfl, rfl⟩
  · exact .inl ⟨rfl, rfl, _, rfl, .inr rfl⟩
  · exact .inl ⟨rfl, rfl, _, rfl, .inl rfl⟩

/-- An exception leaves `EXL` set (60_exceptions.md R243). -/
theorem takeException_exl (s : State) (e : Exc) : (s.takeException e).exl = true := by
  unfold State.exl
  rw [takeException_status, recordException_status, getLsbD_withExl]
  simp

end Sys2Proof.Machine
end

