-- ==== Sys2Proof/Laws/PerInstr.lean ====
section
/-! SUPPORT. The per-instruction family EncodeFitsRow: the encoder writes each instruction's word inside its row of
spec/opcode_table.json (30_encoding.md R84, R85). -/

namespace Sys2Proof.Laws

theorem and_ones5 (x : BitVec 5) : x &&& 0x1F#5 = x := BitVec.and_allOnes
theorem and_ones6 (x : BitVec 6) : x &&& 0x3F#6 = x := BitVec.and_allOnes
theorem and_ones20 (x : BitVec 20) : x &&& 0xFFFFF#20 = x := BitVec.and_allOnes

/-! ### One lemma per format and mask: what the mask keeps -/

theorem fits_r_FC0007FF (op : BitVec 6) (rs : BitVec 5) (rt : BitVec 5) (rd : BitVec 5) (sa : BitVec 5) (f : BitVec 6) :
    rType op rs rt rd sa f &&& 0xFC0007FF#32 = rType op 0#5 0#5 0#5 sa f := by
  rw [show (0xFC0007FF#32 : Word) = (0x3F#6 ++ 0x0#5 ++ 0x0#5 ++ 0x0#5 ++ 0x1F#5 ++ 0x3F#6 : BitVec (6 + 5 + 5 + 5 + 5 + 6)) by decide]
  unfold rType
  repeat rw [BitVec.and_append]
  simp only [BitVec.and_zero, and_ones5, and_ones6]

theorem fits_i_FC000000 (op : BitVec 6) (rs : BitVec 5) (rt : BitVec 5) (imm : BitVec 16) :
    iType op rs rt imm &&& 0xFC000000#32 = iType op 0#5 0#5 0#16 := by
  rw [show (0xFC000000#32 : Word) = (0x3F#6 ++ 0x0#5 ++ 0x0#5 ++ 0x0#16 : BitVec (6 + 5 + 5 + 16)) by decide]
  unfold iType
  repeat rw [BitVec.and_append]
  simp only [BitVec.and_zero, and_ones6]

theorem fits_i_FFE00000 (op : BitVec 6) (rs : BitVec 5) (rt : BitVec 5) (imm : BitVec 16) :
    iType op rs rt imm &&& 0xFFE00000#32 = iType op rs 0#5 0#16 := by
  rw [show (0xFFE00000#32 : Word) = (0x3F#6 ++ 0x1F#5 ++ 0x0#5 ++ 0x0#16 : BitVec (6 + 5 + 5 + 16)) by decide]
  unfold iType
  repeat rw [BitVec.and_append]
  simp only [BitVec.and_zero, and_ones5, and_ones6]

theorem fits_r_FFE0003F (op : BitVec 6) (rs : BitVec 5) (rt : BitVec 5) (rd : BitVec 5) (sa : BitVec 5) (f : BitVec 6) :
    rType op rs rt rd sa f &&& 0xFFE0003F#32 = rType op rs 0#5 0#5 0#5 f := by
  rw [show (0xFFE0003F#32 : Word) = (0x3F#6 ++ 0x1F#5 ++ 0x0#5 ++ 0x0#5 ++ 0x0#5 ++ 0x3F#6 : BitVec (6 + 5 + 5 + 5 + 5 + 6)) by decide]
  unfold rType
  repeat rw [BitVec.and_append]
  simp only [BitVec.and_zero, and_ones5, and_ones6]

theorem fits_r_FC00FFFF (op : BitVec 6) (rs : BitVec 5) (rt : BitVec 5) (rd : BitVec 5) (sa : BitVec 5) (f : BitVec 6) :
    rType op rs rt rd sa f &&& 0xFC00FFFF#32 = rType op 0#5 0#5 rd sa f := by
  rw [show (0xFC00FFFF#32 : Word) = (0x3F#6 ++ 0x0#5 ++ 0x0#5 ++ 0x1F#5 ++ 0x1F#5 ++ 0x3F#6 : BitVec (6 + 5 + 5 + 5 + 5 + 6)) by decide]
  unfold rType
  repeat rw [BitVec.and_append]
  simp only [BitVec.and_zero, and_ones5, and_ones6]

theorem fits_r_FFFF07FF (op : BitVec 6) (rs : BitVec 5) (rt : BitVec 5) (rd : BitVec 5) (sa : BitVec 5) (f : BitVec 6) :
    rType op rs rt rd sa f &&& 0xFFFF07FF#32 = rType op rs rt 0#5 sa f := by
  rw [show (0xFFFF07FF#32 : Word) = (0x3F#6 ++ 0x1F#5 ++ 0x1F#5 ++ 0x0#5 ++ 0x1F#5 ++ 0x3F#6 : BitVec (6 + 5 + 5 + 5 + 5 + 6)) by decide]
  unfold rType
  repeat rw [BitVec.and_append]
  simp only [BitVec.and_zero, and_ones5, and_ones6]

theorem fits_r_FC1FFFFF (op : BitVec 6) (rs : BitVec 5) (rt : BitVec 5) (rd : BitVec 5) (sa : BitVec 5) (f : BitVec 6) :
    rType op rs rt rd sa f &&& 0xFC1FFFFF#32 = rType op 0#5 rt rd sa f := by
  rw [show (0xFC1FFFFF#32 : Word) = (0x3F#6 ++ 0x0#5 ++ 0x1F#5 ++ 0x1F#5 ++ 0x1F#5 ++ 0x3F#6 : BitVec (6 + 5 + 5 + 5 + 5 + 6)) by decide]
  unfold rType
  repeat rw [BitVec.and_append]
  simp only [BitVec.and_zero, and_ones5, and_ones6]

theorem fits_i_FC1F0000 (op : BitVec 6) (rs : BitVec 5) (rt : BitVec 5) (imm : BitVec 16) :
    iType op rs rt imm &&& 0xFC1F0000#32 = iType op 0#5 rt 0#16 := by
  rw [show (0xFC1F0000#32 : Word) = (0x3F#6 ++ 0x0#5 ++ 0x1F#5 ++ 0x0#16 : BitVec (6 + 5 + 5 + 16)) by decide]
  unfold iType
  repeat rw [BitVec.and_append]
  simp only [BitVec.and_zero, and_ones5, and_ones6]

theorem fits_j_FC000000 (op : BitVec 6) (x : BitVec 26) :
    jType op x &&& 0xFC000000#32 = jType op 0#26 := by
  rw [show (0xFC000000#32 : Word) = (0x3F#6 ++ 0x0#26 : BitVec (6 + 26)) by decide]
  unfold jType
  repeat rw [BitVec.and_append]
  simp only [BitVec.and_zero, and_ones6]

theorem fits_r_FC1F07FF (op : BitVec 6) (rs : BitVec 5) (rt : BitVec 5) (rd : BitVec 5) (sa : BitVec 5) (f : BitVec 6) :
    rType op rs rt rd sa f &&& 0xFC1F07FF#32 = rType op 0#5 rt 0#5 sa f := by
  rw [show (0xFC1F07FF#32 : Word) = (0x3F#6 ++ 0x0#5 ++ 0x1F#5 ++ 0x0#5 ++ 0x1F#5 ++ 0x3F#6 : BitVec (6 + 5 + 5 + 5 + 5 + 6)) by decide]
  unfold rType
  repeat rw [BitVec.and_append]
  simp only [BitVec.and_zero, and_ones5, and_ones6]

theorem fits_code_FC00003F (c : BitVec 20) (f : BitVec 6) :
    codeType c f &&& 0xFC00003F#32 = codeType 0#20 f := by
  rw [show (0xFC00003F#32 : Word) = (0x3F#6 ++ 0x0#20 ++ 0x3F#6 : BitVec (6 + 20 + 6)) by decide]
  unfold codeType
  repeat rw [BitVec.and_append]
  simp only [BitVec.and_zero, and_ones6]

theorem fits_trap_FC00003F (rs : BitVec 5) (rt : BitVec 5) (c : BitVec 10) (f : BitVec 6) :
    trapType rs rt c f &&& 0xFC00003F#32 = trapType 0#5 0#5 0#10 f := by
  rw [show (0xFC00003F#32 : Word) = (0x3F#6 ++ 0x0#5 ++ 0x0#5 ++ 0x0#10 ++ 0x3F#6 : BitVec (6 + 5 + 5 + 10 + 6)) by decide]
  unfold trapType
  repeat rw [BitVec.and_append]
  simp only [BitVec.and_zero, and_ones6]

theorem fits_r_FFE007FF (op : BitVec 6) (rs : BitVec 5) (rt : BitVec 5) (rd : BitVec 5) (sa : BitVec 5) (f : BitVec 6) :
    rType op rs rt rd sa f &&& 0xFFE007FF#32 = rType op rs 0#5 0#5 sa f := by
  rw [show (0xFFE007FF#32 : Word) = (0x3F#6 ++ 0x1F#5 ++ 0x0#5 ++ 0x0#5 ++ 0x1F#5 ++ 0x3F#6 : BitVec (6 + 5 + 5 + 5 + 5 + 6)) by decide]
  unfold rType
  repeat rw [BitVec.and_append]
  simp only [BitVec.and_zero, and_ones5, and_ones6]

/-! ### The family -/

/-- The instruction's word fits its row: mask, match, and the row's extra condition. -/
def EncodeFitsRow.Statement (i : Instr) : Prop :=
  encode i &&& i.mask = i.matchBits ∧ (i.wellFormed = true → i.extra (encode i) = true)

theorem EncodeFitsRow.add (rd rs rt : Reg) : EncodeFitsRow.Statement (.add rd rs rt) :=
  ⟨fits_r_FC0007FF _ _ _ _ _ _, fun _ => rfl⟩
theorem EncodeFitsRow.addu (rd rs rt : Reg) : EncodeFitsRow.Statement (.addu rd rs rt) :=
  ⟨fits_r_FC0007FF _ _ _ _ _ _, fun _ => rfl⟩
theorem EncodeFitsRow.sub (rd rs rt : Reg) : EncodeFitsRow.Statement (.sub rd rs rt) :=
  ⟨fits_r_FC0007FF _ _ _ _ _ _, fun _ => rfl⟩
theorem EncodeFitsRow.subu (rd rs rt : Reg) : EncodeFitsRow.Statement (.subu rd rs rt) :=
  ⟨fits_r_FC0007FF _ _ _ _ _ _, fun _ => rfl⟩
theorem EncodeFitsRow.addi (rt rs : Reg) (imm : BitVec 16) : EncodeFitsRow.Statement (.addi rt rs imm) :=
  ⟨fits_i_FC000000 _ _ _ _, fun _ => rfl⟩
theorem EncodeFitsRow.addiu (rt rs : Reg) (imm : BitVec 16) : EncodeFitsRow.Statement (.addiu rt rs imm) :=
  ⟨fits_i_FC000000 _ _ _ _, fun _ => rfl⟩
theorem EncodeFitsRow.and (rd rs rt : Reg) : EncodeFitsRow.Statement (.and rd rs rt) :=
  ⟨fits_r_FC0007FF _ _ _ _ _ _, fun _ => rfl⟩
theorem EncodeFitsRow.or (rd rs rt : Reg) : EncodeFitsRow.Statement (.or rd rs rt) :=
  ⟨fits_r_FC0007FF _ _ _ _ _ _, fun _ => rfl⟩
theorem EncodeFitsRow.xor (rd rs rt : Reg) : EncodeFitsRow.Statement (.xor rd rs rt) :=
  ⟨fits_r_FC0007FF _ _ _ _ _ _, fun _ => rfl⟩
theorem EncodeFitsRow.nor (rd rs rt : Reg) : EncodeFitsRow.Statement (.nor rd rs rt) :=
  ⟨fits_r_FC0007FF _ _ _ _ _ _, fun _ => rfl⟩
theorem EncodeFitsRow.andi (rt rs : Reg) (imm : BitVec 16) : EncodeFitsRow.Statement (.andi rt rs imm) :=
  ⟨fits_i_FC000000 _ _ _ _, fun _ => rfl⟩
theorem EncodeFitsRow.ori (rt rs : Reg) (imm : BitVec 16) : EncodeFitsRow.Statement (.ori rt rs imm) :=
  ⟨fits_i_FC000000 _ _ _ _, fun _ => rfl⟩
theorem EncodeFitsRow.xori (rt rs : Reg) (imm : BitVec 16) : EncodeFitsRow.Statement (.xori rt rs imm) :=
  ⟨fits_i_FC000000 _ _ _ _, fun _ => rfl⟩
theorem EncodeFitsRow.lui (rt : Reg) (imm : BitVec 16) : EncodeFitsRow.Statement (.lui rt imm) :=
  ⟨fits_i_FFE00000 _ _ _ _, fun _ => rfl⟩
theorem EncodeFitsRow.slt (rd rs rt : Reg) : EncodeFitsRow.Statement (.slt rd rs rt) :=
  ⟨fits_r_FC0007FF _ _ _ _ _ _, fun _ => rfl⟩
theorem EncodeFitsRow.sltu (rd rs rt : Reg) : EncodeFitsRow.Statement (.sltu rd rs rt) :=
  ⟨fits_r_FC0007FF _ _ _ _ _ _, fun _ => rfl⟩
theorem EncodeFitsRow.slti (rt rs : Reg) (imm : BitVec 16) : EncodeFitsRow.Statement (.slti rt rs imm) :=
  ⟨fits_i_FC000000 _ _ _ _, fun _ => rfl⟩
theorem EncodeFitsRow.sltiu (rt rs : Reg) (imm : BitVec 16) : EncodeFitsRow.Statement (.sltiu rt rs imm) :=
  ⟨fits_i_FC000000 _ _ _ _, fun _ => rfl⟩
theorem EncodeFitsRow.sll (rd rt : Reg) (sa : BitVec 5) : EncodeFitsRow.Statement (.sll rd rt sa) :=
  ⟨fits_r_FFE0003F _ _ _ _ _ _, fun _ => rfl⟩
theorem EncodeFitsRow.srl (rd rt : Reg) (sa : BitVec 5) : EncodeFitsRow.Statement (.srl rd rt sa) :=
  ⟨fits_r_FFE0003F _ _ _ _ _ _, fun _ => rfl⟩
theorem EncodeFitsRow.sra (rd rt : Reg) (sa : BitVec 5) : EncodeFitsRow.Statement (.sra rd rt sa) :=
  ⟨fits_r_FFE0003F _ _ _ _ _ _, fun _ => rfl⟩
theorem EncodeFitsRow.sllv (rd rt rs : Reg) : EncodeFitsRow.Statement (.sllv rd rt rs) :=
  ⟨fits_r_FC0007FF _ _ _ _ _ _, fun _ => rfl⟩
theorem EncodeFitsRow.srlv (rd rt rs : Reg) : EncodeFitsRow.Statement (.srlv rd rt rs) :=
  ⟨fits_r_FC0007FF _ _ _ _ _ _, fun _ => rfl⟩
theorem EncodeFitsRow.srav (rd rt rs : Reg) : EncodeFitsRow.Statement (.srav rd rt rs) :=
  ⟨fits_r_FC0007FF _ _ _ _ _ _, fun _ => rfl⟩
theorem EncodeFitsRow.movz (rd rs rt : Reg) : EncodeFitsRow.Statement (.movz rd rs rt) :=
  ⟨fits_r_FC0007FF _ _ _ _ _ _, fun _ => rfl⟩
theorem EncodeFitsRow.movn (rd rs rt : Reg) : EncodeFitsRow.Statement (.movn rd rs rt) :=
  ⟨fits_r_FC0007FF _ _ _ _ _ _, fun _ => rfl⟩
theorem EncodeFitsRow.clz (rd rs : Reg) : EncodeFitsRow.Statement (.clz rd rs) :=
  ⟨fits_r_FC0007FF _ _ _ _ _ _, fun _ => rfl⟩
theorem EncodeFitsRow.clo (rd rs : Reg) : EncodeFitsRow.Statement (.clo rd rs) :=
  ⟨fits_r_FC0007FF _ _ _ _ _ _, fun _ => rfl⟩
theorem EncodeFitsRow.nop : EncodeFitsRow.Statement (.nop) :=
  ⟨rfl, fun _ => rfl⟩
theorem EncodeFitsRow.mult (rs rt : Reg) : EncodeFitsRow.Statement (.mult rs rt) :=
  ⟨fits_r_FC00FFFF _ _ _ _ _ _, fun _ => rfl⟩
theorem EncodeFitsRow.multu (rs rt : Reg) : EncodeFitsRow.Statement (.multu rs rt) :=
  ⟨fits_r_FC00FFFF _ _ _ _ _ _, fun _ => rfl⟩
theorem EncodeFitsRow.div (rs rt : Reg) : EncodeFitsRow.Statement (.div rs rt) :=
  ⟨fits_r_FC00FFFF _ _ _ _ _ _, fun _ => rfl⟩
theorem EncodeFitsRow.divu (rs rt : Reg) : EncodeFitsRow.Statement (.divu rs rt) :=
  ⟨fits_r_FC00FFFF _ _ _ _ _ _, fun _ => rfl⟩
theorem EncodeFitsRow.mfhi (rd : Reg) : EncodeFitsRow.Statement (.mfhi rd) :=
  ⟨fits_r_FFFF07FF _ _ _ _ _ _, fun _ => rfl⟩
theorem EncodeFitsRow.mflo (rd : Reg) : EncodeFitsRow.Statement (.mflo rd) :=
  ⟨fits_r_FFFF07FF _ _ _ _ _ _, fun _ => rfl⟩
theorem EncodeFitsRow.mthi (rs : Reg) : EncodeFitsRow.Statement (.mthi rs) :=
  ⟨fits_r_FC1FFFFF _ _ _ _ _ _, fun _ => rfl⟩
theorem EncodeFitsRow.mtlo (rs : Reg) : EncodeFitsRow.Statement (.mtlo rs) :=
  ⟨fits_r_FC1FFFFF _ _ _ _ _ _, fun _ => rfl⟩
theorem EncodeFitsRow.mul (rd rs rt : Reg) : EncodeFitsRow.Statement (.mul rd rs rt) :=
  ⟨fits_r_FC0007FF _ _ _ _ _ _, fun _ => rfl⟩
theorem EncodeFitsRow.madd (rs rt : Reg) : EncodeFitsRow.Statement (.madd rs rt) :=
  ⟨fits_r_FC00FFFF _ _ _ _ _ _, fun _ => rfl⟩
theorem EncodeFitsRow.maddu (rs rt : Reg) : EncodeFitsRow.Statement (.maddu rs rt) :=
  ⟨fits_r_FC00FFFF _ _ _ _ _ _, fun _ => rfl⟩
theorem EncodeFitsRow.msub (rs rt : Reg) : EncodeFitsRow.Statement (.msub rs rt) :=
  ⟨fits_r_FC00FFFF _ _ _ _ _ _, fun _ => rfl⟩
theorem EncodeFitsRow.msubu (rs rt : Reg) : EncodeFitsRow.Statement (.msubu rs rt) :=
  ⟨fits_r_FC00FFFF _ _ _ _ _ _, fun _ => rfl⟩
theorem EncodeFitsRow.lb (rt rs : Reg) (imm : BitVec 16) : EncodeFitsRow.Statement (.lb rt rs imm) :=
  ⟨fits_i_FC000000 _ _ _ _, fun _ => rfl⟩
theorem EncodeFitsRow.lbu (rt rs : Reg) (imm : BitVec 16) : EncodeFitsRow.Statement (.lbu rt rs imm) :=
  ⟨fits_i_FC000000 _ _ _ _, fun _ => rfl⟩
theorem EncodeFitsRow.lh (rt rs : Reg) (imm : BitVec 16) : EncodeFitsRow.Statement (.lh rt rs imm) :=
  ⟨fits_i_FC000000 _ _ _ _, fun _ => rfl⟩
theorem EncodeFitsRow.lhu (rt rs : Reg) (imm : BitVec 16) : EncodeFitsRow.Statement (.lhu rt rs imm) :=
  ⟨fits_i_FC000000 _ _ _ _, fun _ => rfl⟩
theorem EncodeFitsRow.lw (rt rs : Reg) (imm : BitVec 16) : EncodeFitsRow.Statement (.lw rt rs imm) :=
  ⟨fits_i_FC000000 _ _ _ _, fun _ => rfl⟩
theorem EncodeFitsRow.lwl (rt rs : Reg) (imm : BitVec 16) : EncodeFitsRow.Statement (.lwl rt rs imm) :=
  ⟨fits_i_FC000000 _ _ _ _, fun _ => rfl⟩
theorem EncodeFitsRow.lwr (rt rs : Reg) (imm : BitVec 16) : EncodeFitsRow.Statement (.lwr rt rs imm) :=
  ⟨fits_i_FC000000 _ _ _ _, fun _ => rfl⟩
theorem EncodeFitsRow.sb (rt rs : Reg) (imm : BitVec 16) : EncodeFitsRow.Statement (.sb rt rs imm) :=
  ⟨fits_i_FC000000 _ _ _ _, fun _ => rfl⟩
theorem EncodeFitsRow.sh (rt rs : Reg) (imm : BitVec 16) : EncodeFitsRow.Statement (.sh rt rs imm) :=
  ⟨fits_i_FC000000 _ _ _ _, fun _ => rfl⟩
theorem EncodeFitsRow.sw (rt rs : Reg) (imm : BitVec 16) : EncodeFitsRow.Statement (.sw rt rs imm) :=
  ⟨fits_i_FC000000 _ _ _ _, fun _ => rfl⟩
theorem EncodeFitsRow.swl (rt rs : Reg) (imm : BitVec 16) : EncodeFitsRow.Statement (.swl rt rs imm) :=
  ⟨fits_i_FC000000 _ _ _ _, fun _ => rfl⟩
theorem EncodeFitsRow.swr (rt rs : Reg) (imm : BitVec 16) : EncodeFitsRow.Statement (.swr rt rs imm) :=
  ⟨fits_i_FC000000 _ _ _ _, fun _ => rfl⟩
theorem EncodeFitsRow.ll (rt rs : Reg) (imm : BitVec 16) : EncodeFitsRow.Statement (.ll rt rs imm) :=
  ⟨fits_i_FC000000 _ _ _ _, fun _ => rfl⟩
theorem EncodeFitsRow.sc (rt rs : Reg) (imm : BitVec 16) : EncodeFitsRow.Statement (.sc rt rs imm) :=
  ⟨fits_i_FC000000 _ _ _ _, fun _ => rfl⟩
theorem EncodeFitsRow.beq (rs rt : Reg) (imm : BitVec 16) : EncodeFitsRow.Statement (.beq rs rt imm) :=
  ⟨fits_i_FC000000 _ _ _ _, fun _ => rfl⟩
theorem EncodeFitsRow.bne (rs rt : Reg) (imm : BitVec 16) : EncodeFitsRow.Statement (.bne rs rt imm) :=
  ⟨fits_i_FC000000 _ _ _ _, fun _ => rfl⟩
theorem EncodeFitsRow.blez (rs : Reg) (imm : BitVec 16) : EncodeFitsRow.Statement (.blez rs imm) :=
  ⟨fits_i_FC1F0000 _ _ _ _, fun _ => rfl⟩
theorem EncodeFitsRow.bgtz (rs : Reg) (imm : BitVec 16) : EncodeFitsRow.Statement (.bgtz rs imm) :=
  ⟨fits_i_FC1F0000 _ _ _ _, fun _ => rfl⟩
theorem EncodeFitsRow.bltz (rs : Reg) (imm : BitVec 16) : EncodeFitsRow.Statement (.bltz rs imm) :=
  ⟨fits_i_FC1F0000 _ _ _ _, fun _ => rfl⟩
theorem EncodeFitsRow.bgez (rs : Reg) (imm : BitVec 16) : EncodeFitsRow.Statement (.bgez rs imm) :=
  ⟨fits_i_FC1F0000 _ _ _ _, fun _ => rfl⟩
theorem EncodeFitsRow.bltzal (rs : Reg) (imm : BitVec 16) : EncodeFitsRow.Statement (.bltzal rs imm) :=
  ⟨fits_i_FC1F0000 _ _ _ _, fun _ => rfl⟩
theorem EncodeFitsRow.bgezal (rs : Reg) (imm : BitVec 16) : EncodeFitsRow.Statement (.bgezal rs imm) :=
  ⟨fits_i_FC1F0000 _ _ _ _, fun _ => rfl⟩
theorem EncodeFitsRow.j (index : BitVec 26) : EncodeFitsRow.Statement (.j index) :=
  ⟨fits_j_FC000000 _ _, fun _ => rfl⟩
theorem EncodeFitsRow.jal (index : BitVec 26) : EncodeFitsRow.Statement (.jal index) :=
  ⟨fits_j_FC000000 _ _, fun _ => rfl⟩
theorem EncodeFitsRow.jr (rs : Reg) : EncodeFitsRow.Statement (.jr rs) :=
  ⟨fits_r_FC1FFFFF _ _ _ _ _ _, fun _ => rfl⟩
theorem EncodeFitsRow.jalr (rd rs : Reg) : EncodeFitsRow.Statement (.jalr rd rs) :=
  ⟨fits_r_FC1F07FF _ _ _ _ _ _, fun _ => rfl⟩
theorem EncodeFitsRow.syscall : EncodeFitsRow.Statement (.syscall) :=
  ⟨fits_code_FC00003F _ _, fun _ => rfl⟩
theorem EncodeFitsRow.brk (code : BitVec 20) : EncodeFitsRow.Statement (.brk code) :=
  ⟨fits_code_FC00003F _ _, fun _ => rfl⟩
theorem EncodeFitsRow.teq (rs rt : Reg) (code : BitVec 10) : EncodeFitsRow.Statement (.teq rs rt code) :=
  ⟨fits_trap_FC00003F _ _ _ _, fun _ => rfl⟩
theorem EncodeFitsRow.tne (rs rt : Reg) (code : BitVec 10) : EncodeFitsRow.Statement (.tne rs rt code) :=
  ⟨fits_trap_FC00003F _ _ _ _, fun _ => rfl⟩
theorem EncodeFitsRow.tge (rs rt : Reg) (code : BitVec 10) : EncodeFitsRow.Statement (.tge rs rt code) :=
  ⟨fits_trap_FC00003F _ _ _ _, fun _ => rfl⟩
theorem EncodeFitsRow.tgeu (rs rt : Reg) (code : BitVec 10) : EncodeFitsRow.Statement (.tgeu rs rt code) :=
  ⟨fits_trap_FC00003F _ _ _ _, fun _ => rfl⟩
theorem EncodeFitsRow.tlt (rs rt : Reg) (code : BitVec 10) : EncodeFitsRow.Statement (.tlt rs rt code) :=
  ⟨fits_trap_FC00003F _ _ _ _, fun _ => rfl⟩
theorem EncodeFitsRow.tltu (rs rt : Reg) (code : BitVec 10) : EncodeFitsRow.Statement (.tltu rs rt code) :=
  ⟨fits_trap_FC00003F _ _ _ _, fun _ => rfl⟩
theorem EncodeFitsRow.teqi (rs : Reg) (imm : BitVec 16) : EncodeFitsRow.Statement (.teqi rs imm) :=
  ⟨fits_i_FC1F0000 _ _ _ _, fun _ => rfl⟩
theorem EncodeFitsRow.tnei (rs : Reg) (imm : BitVec 16) : EncodeFitsRow.Statement (.tnei rs imm) :=
  ⟨fits_i_FC1F0000 _ _ _ _, fun _ => rfl⟩
theorem EncodeFitsRow.tgei (rs : Reg) (imm : BitVec 16) : EncodeFitsRow.Statement (.tgei rs imm) :=
  ⟨fits_i_FC1F0000 _ _ _ _, fun _ => rfl⟩
theorem EncodeFitsRow.tgeiu (rs : Reg) (imm : BitVec 16) : EncodeFitsRow.Statement (.tgeiu rs imm) :=
  ⟨fits_i_FC1F0000 _ _ _ _, fun _ => rfl⟩
theorem EncodeFitsRow.tlti (rs : Reg) (imm : BitVec 16) : EncodeFitsRow.Statement (.tlti rs imm) :=
  ⟨fits_i_FC1F0000 _ _ _ _, fun _ => rfl⟩
theorem EncodeFitsRow.tltiu (rs : Reg) (imm : BitVec 16) : EncodeFitsRow.Statement (.tltiu rs imm) :=
  ⟨fits_i_FC1F0000 _ _ _ _, fun _ => rfl⟩
theorem EncodeFitsRow.eret : EncodeFitsRow.Statement (.eret) :=
  ⟨rfl, fun _ => rfl⟩
theorem EncodeFitsRow.mfc0 (rt : Reg) (rd : BitVec 5) : EncodeFitsRow.Statement (.mfc0 rt rd) :=
  ⟨fits_r_FFE007FF _ _ _ _ _ _, fun h => by simpa [Instr.extra, Instr.wellFormed, encode] using h⟩
theorem EncodeFitsRow.mtc0 (rt : Reg) (rd : BitVec 5) : EncodeFitsRow.Statement (.mtc0 rt rd) :=
  ⟨fits_r_FFE007FF _ _ _ _ _ _, fun h => by simpa [Instr.extra, Instr.wellFormed, encode] using h⟩

end Sys2Proof.Laws
end

