-- ==== Sys2Proof/Laws/Step.lean ====
section
/-! SUPPORT. Everything one step can do, said once: `step_cases`. A claim about every step takes it apart instead of unfolding
`step`. -/

namespace Sys2Proof.Machine

/-- What an instruction step can do (43_control.md R180): raise before it executes, end the run, or execute an instruction. -/
theorem instrStep_cases (s : State) :
    (∃ e, s.instrStep = .next (s.takeException e)) ∨ s.instrStep = .next (s.schedule (.halt 0#32)) ∨
      ∃ i, s.instrStep = exec i s := by
  unfold State.instrStep
  split
  · exact .inl ⟨_, rfl⟩
  · exact .inr (.inl rfl)
  · split
    · exact .inl ⟨_, rfl⟩
    · exact .inr (.inr ⟨_, rfl⟩)

/-- The state after `step()` began and before its instruction, or before one iteration of the run loop executes. -/
def Begun (s : State) (rest : List Command) : State := { s with commands := rest, skipBreak := false }

/-- The ways a step answers a next state. -/
inductive StepForm (s t : State) : Prop where
  /-- A command was refused. -/
  | refused (c : Command) (rest : List Command) (h : s.commands = c :: rest) (e : t = { s with commands := rest })
  /-- `load` of a valid image. -/
  | load (img : Image) (rest : List Command) (h : s.commands = .load img :: rest)
      (r : s.runState = .idle ∨ s.runState = .loaded) (v : img.valid = true)
      (e : t = State.install { s with commands := rest } img)
  /-- `reset` of the retained image. -/
  | reset (img : Image) (rest : List Command) (h : s.commands = .reset :: rest) (r : s.runState ≠ .idle)
      (v : s.image = some img) (e : t = State.install { s with commands := rest } img)
  /-- `run`, `pause` or `stop`. -/
  | control (c : Command) (rest : List Command) (run : RunState) (k : Bool) (h : s.commands = c :: rest)
      (hc : c = .run ∨ c = .pause ∨ c = .stop) (r : s.runState = .loaded ∨ s.runState = .paused ∨ s.runState = .running)
      (r' : run = .running ∨ run = .paused) (e : t = { s with commands := rest, runState := run, skipBreak := k })
  /-- A breakpoint command. -/
  | breakpoint (c : Command) (rest : List Command) (l : List Word) (a : Word) (h : s.commands = c :: rest)
      (hl : c = .setBreakpoint a ∧ l = insertAddr a s.breakpoints ∨ c = .clearBreakpoint a ∧ l = removeAddr a s.breakpoints)
      (e : t = { s with commands := rest, breakpoints := l })
  /-- `step`, which executes one instruction. -/
  | single (rest : List Command) (u : State) (h : s.commands = .step :: rest)
      (r : s.runState = .loaded ∨ s.runState = .paused) (x : (Begun s rest).instrStep = .next u) (e : t = u.endStep)
  /-- The run loop pauses at a breakpoint. -/
  | pausedAt (h : s.commands = []) (r : s.runState = .running) (e : t = { s with runState := .paused })
  /-- The run loop executes one instruction. -/
  | looped (h : s.commands = []) (r : s.runState = .running) (x : (Begun s []).instrStep = .next t)

/-- Everything a step that answers a next state can do (70_reset_and_hazards.md R280 to R289). -/
theorem step_cases {s t : State} (h : step s = .next t) : StepForm s t := by
  unfold step State.cycle at h
  cases hc : s.commands with
  | nil =>
    rw [hc] at h
    simp only at h
    split at h <;> rename_i hr
    · split at h
      · cases h
        exact .pausedAt hc hr (by rw [← hc])
      · exact .looped hc hr (by rw [← h, ← hc]; rfl)
    all_goals cases h
  | cons c rest =>
    rw [hc] at h
    simp only at h
    split at h
    · cases h
      exact .refused c rest hc rfl
    · rename_i u hu
      cases c with
      | load img =>
        cases h
        unfold State.command at hu
        simp only at hu
        cases hr : s.runState <;> rw [hr] at hu <;> simp only at hu <;> try cases hu
        all_goals
          split at hu
          · rename_i hv
            cases hu
            exact .load img rest hc (by simp [hr]) hv rfl
          · cases hu
      | reset =>
        cases h
        unfold State.command at hu
        simp only at hu
        cases hr : s.runState <;> rw [hr] at hu <;> simp only at hu <;> try cases hu
        all_goals
          cases hi : s.image with
          | none => rw [hi] at hu; cases hu
          | some img =>
            rw [hi] at hu
            cases hu
            exact .reset img rest hc (by simp [hr]) hi rfl
      | step =>
        cases hx : u.instrStep with
        | next v =>
          simp only [hx, mapNext] at h
          cases h
          unfold State.command at hu
          simp only at hu
          cases hr : s.runState <;> rw [hr] at hu <;> simp only at hu <;> cases hu
          all_goals exact .single rest v hc (by simp [hr]) (by simpa only [Begun, hr] using hx) rfl
        | fault _ => simp [hx, mapNext] at h
        | refused _ => simp [hx, mapNext] at h
      | setBreakpoint a =>
        cases h
        cases hu
        exact .breakpoint _ rest _ a hc (.inl ⟨rfl, rfl⟩) rfl
      | clearBreakpoint a =>
        cases h
        cases hu
        exact .breakpoint _ rest _ a hc (.inr ⟨rfl, rfl⟩) rfl
      | run =>
        cases h
        unfold State.command at hu
        simp only at hu
        cases hr : s.runState <;> rw [hr] at hu <;> simp only at hu <;> cases hu
        all_goals exact .control _ rest .running _ hc (by simp) (by simp [hr]) (by simp) rfl
      | pause =>
        cases h
        unfold State.command at hu
        simp only at hu
        cases hr : s.runState <;> rw [hr] at hu <;> simp only at hu <;> cases hu
        exact .control _ rest .paused _ hc (by simp) (by simp [hr]) (by simp) rfl
      | stop =>
        cases h
        unfold State.command at hu
        simp only at hu
        cases hr : s.runState <;> rw [hr] at hu <;> simp only at hu <;> cases hu
        exact .control _ rest .paused _ hc (by simp) (by simp [hr]) (by simp) rfl

end Sys2Proof.Machine
end

