-- ==== Sys2Proof/Tests/Slice0.lean ====
section
/-! SUPPORT. Tests: the ill-formed terms each check refuses, words written out from the encodings, one step on the vectors of
95_test_vectors.md, and for every obligation with hypotheses a theorem `test_hyp_<name>` that meets them. -/

namespace Sys2Proof.Tests

open Sys2Proof.Machine

/-! ### Helpers -/

/-- The power-on state with some registers set. -/
def start (regs : List (Reg × Word)) : State := regs.foldl (fun s p => s.setReg p.1 p.2) State.reset

/-- The state with bytes in memory from an address on. -/
def withBytes (s : State) (a : Word) (bytes : List Byte) : State := { s with mem := Memory.storeBytes s.mem a bytes }

/-- The data of the vectors of 95_test_vectors.md 2.3: 11 22 33 84 at 0x10010000, and t0 there. -/
def dataStart (regs : List (Reg × Word)) : State :=
  withBytes (start ((8, 0x10010000#32) :: regs)) 0x10010000#32 [0x11#8, 0x22#8, 0x33#8, 0x84#8]

/-- What `f` sees after the word has run as the next step. -/
def seen {α : Type} (s : State) (w : Nat) (f : State → α) : Option α :=
  match step (s.withFetchWord 32 w) with
  | .next t => some (f t)
  | .fault _ | .refused _ => none

/-- What `f` sees after an instruction. -/
def ran {α : Type} (r : Result) (f : State → α) : Option α :=
  match r with
  | .next t => some (f t)
  | .fault _ | .refused _ => none

/-- The pending transfer as a pair. -/
def pending (s : State) : Option (Word × Word) := s.pend.map (fun p => (p.target, p.branch))

/-- The reason of the fault record. -/
def reason (s : State) : Option FaultReason := s.faultInfo.map (fun i => i.reason)

/-- The four bytes from an address on. -/
def four (s : State) (a : Word) : List Byte :=
  [Memory.byteAt s.mem a, Memory.byteAt s.mem (a + 1), Memory.byteAt s.mem (a + 2), Memory.byteAt s.mem (a + 3)]

/-! ### Well-formedness: each check refuses a term -/

/-- 30_encoding.md R84, R98: the zero word is `nop`, not a form of `sll`. -/
theorem test_ill_formed_sll : Instr.wellFormed (.sll 0 0 0) = false ∧ Instr.wellFormed (.sll 0 0 1) = true := by decide
/-- 30_encoding.md R91: CP0 register 9 does not exist. -/
theorem test_ill_formed_mfc0 : Instr.wellFormed (.mfc0 8 9) = false ∧ Instr.wellFormed (.mfc0 8 13) = true := by decide
/-- 30_encoding.md R91: CP0 register 0 does not exist. -/
theorem test_ill_formed_mtc0 : Instr.wellFormed (.mtc0 8 0) = false ∧ Instr.wellFormed (.mtc0 8 14) = true := by decide

/-! ### Decoding: words written out bit by bit (further words stand beside the decoder) -/

/-- 30_encoding.md R81, R88: SPECIAL, rs 31, rt 1, rd 16, sa 0, funct 0x22. -/
theorem test_decode_arith : decode 0b000000_11111_00001_10000_00000_100010#32 = .ok (.sub 16 31 1) := by decide
/-- 30_encoding.md R81, R87: op 0x0B, rs 2, rt 30. -/
theorem test_decode_immediate : decode 0b001011_00010_11110_1000000000000001#32 = .ok (.sltiu 30 2 0x8001) := by decide
/-- 30_encoding.md R81, R88: SPECIAL, rs 0, rt 16, rd 1, sa 17, funct 0x03. -/
theorem test_decode_shift : decode 0b000000_00000_10000_00001_10001_000011#32 = .ok (.sra 1 16 17) := by decide
/-- 30_encoding.md R81, R90: SPECIAL2, rs 1, rt 2, rd 4, sa 0, funct 0x02. -/
theorem test_decode_muldiv : decode 0b011100_00001_00010_00100_00000_000010#32 = .ok (.mul 4 1 2) := by decide
/-- 30_encoding.md R81, R87: op 0x2E, rs 29, rt 31. -/
theorem test_decode_loadstore : decode 0b101110_11101_11111_0111111111111111#32 = .ok (.swr 31 29 0x7FFF) := by decide
/-- 30_encoding.md R81, R89: REGIMM, rs 16, rt 0x11. -/
theorem test_decode_control : decode 0b000001_10000_10001_1000000000000000#32 = .ok (.bgezal 16 0x8000) := by decide
/-- 30_encoding.md R81, R88: SPECIAL, rs 4, rt 5, code 0x201, funct 0x33. -/
theorem test_decode_system : decode 0b000000_00100_00101_1000000001_110011#32 = .ok (.tltu 4 5 0x201) := by decide
/-- 44_system.md R233: `mfc0` of a register that does not exist is refused (V-T17). -/
theorem test_decode_refuses : decode 0x40084800#32 = .error (.invalidOpcode 0x40084800#32) := by decide

/-! ### 40_arith_logic.md, one step on the vectors of 95_test_vectors.md 2.1 -/

/-- V-A1. -/
theorem test_add_overflow : seen (start [(8, 0x7FFFFFFF#32), (9, 0x00000001#32)]) 0x01095020
    (fun t => (t.reg 10, t.pc, t.cause, t.status, reason t)) = some (0x00000000#32, 0x00400000#32, 0x00000030#32, 0x0000FF13#32, some .arithmeticOverflow) := by decide
/-- V-A4. -/
theorem test_add_negative : seen (start [(8, 0xFFFFFFFF#32), (9, 0xFFFFFFFF#32)]) 0x01095020
    (fun t => (t.reg 10, t.pc, t.runState)) = some (0xFFFFFFFE#32, 0x00400004#32, .running) := by decide
/-- V-A2. -/
theorem test_addu_wraps : seen (start [(8, 0x7FFFFFFF#32), (9, 0x00000001#32)]) 0x01095021
    (fun t => (t.reg 10, t.pc, t.runState)) = some (0x80000000#32, 0x00400004#32, .running) := by decide
/-- V-A5. -/
theorem test_sub_overflow : seen (start [(8, 0x80000000#32), (9, 0x00000001#32)]) 0x01095022
    (fun t => (t.reg 10, t.pc, t.cause, t.status, reason t)) = some (0x00000000#32, 0x00400000#32, 0x00000030#32, 0x0000FF13#32, some .arithmeticOverflow) := by decide
/-- V-A6. -/
theorem test_sub_min : seen (start [(8, 0x00000000#32), (9, 0x80000000#32)]) 0x01095022
    (fun t => (t.reg 10, t.pc, t.cause, t.status, reason t)) = some (0x00000000#32, 0x00400000#32, 0x00000030#32, 0x0000FF13#32, some .arithmeticOverflow) := by decide
/-- V-A7. -/
theorem test_subu_wraps : seen (start [(8, 0x00000000#32), (9, 0x00000001#32)]) 0x01095023
    (fun t => (t.reg 10, t.pc, t.runState)) = some (0xFFFFFFFF#32, 0x00400004#32, .running) := by decide
/-- V-A8. -/
theorem test_addi_overflow : seen (start [(8, 0x80000000#32)]) 0x210AFFFF
    (fun t => (t.reg 10, t.pc, t.cause, t.status, reason t)) = some (0x00000000#32, 0x00400000#32, 0x00000030#32, 0x0000FF13#32, some .arithmeticOverflow) := by decide
/-- V-A10. -/
theorem test_addi_least : seen (start [(8, 0x00000000#32)]) 0x210A8000
    (fun t => (t.reg 10, t.pc, t.runState)) = some (0xFFFF8000#32, 0x00400004#32, .running) := by decide
/-- V-A9. -/
theorem test_addiu_wraps : seen (start [(8, 0x80000000#32)]) 0x250AFFFF
    (fun t => (t.reg 10, t.pc, t.runState)) = some (0x7FFFFFFF#32, 0x00400004#32, .running) := by decide
/-- V-A12. -/
theorem test_and : seen (start [(8, 0xF0F0F0F0#32), (9, 0xFF00FF00#32)]) 0x01095024
    (fun t => (t.reg 10, t.pc, t.runState)) = some (0xF000F000#32, 0x00400004#32, .running) := by decide
/-- V-A13. -/
theorem test_or : seen (start [(8, 0xF0F0F0F0#32), (9, 0xFF00FF00#32)]) 0x01095025
    (fun t => (t.reg 10, t.pc, t.runState)) = some (0xFFF0FFF0#32, 0x00400004#32, .running) := by decide
/-- V-A14. -/
theorem test_xor : seen (start [(8, 0xF0F0F0F0#32), (9, 0xFF00FF00#32)]) 0x01095026
    (fun t => (t.reg 10, t.pc, t.runState)) = some (0x0FF00FF0#32, 0x00400004#32, .running) := by decide
/-- V-A15. -/
theorem test_nor : seen (start [(8, 0xF0F0F0F0#32), (9, 0xFF00FF00#32)]) 0x01095027
    (fun t => (t.reg 10, t.pc, t.runState)) = some (0x000F000F#32, 0x00400004#32, .running) := by decide
/-- V-A16. -/
theorem test_andi_zero_extends : seen (start [(8, 0xFFFFFFFF#32)]) 0x310AFFFF
    (fun t => (t.reg 10, t.pc, t.runState)) = some (0x0000FFFF#32, 0x00400004#32, .running) := by decide
/-- V-A17. -/
theorem test_ori_zero_extends : seen (start [(8, 0x00000000#32)]) 0x350A8000
    (fun t => (t.reg 10, t.pc, t.runState)) = some (0x00008000#32, 0x00400004#32, .running) := by decide
/-- V-A18. -/
theorem test_xori : seen (start [(8, 0x12345678#32)]) 0x390AFFFF
    (fun t => (t.reg 10, t.pc, t.runState)) = some (0x1234A987#32, 0x00400004#32, .running) := by decide
/-- V-A19. -/
theorem test_lui : seen (start []) 0x3C0A8001
    (fun t => (t.reg 10, t.pc, t.runState)) = some (0x80010000#32, 0x00400004#32, .running) := by decide
/-- V-A20. -/
theorem test_slt : seen (start [(8, 0xFFFFFFFF#32), (9, 0x00000001#32)]) 0x0109502A
    (fun t => (t.reg 10, t.pc, t.runState)) = some (0x00000001#32, 0x00400004#32, .running) := by decide
/-- V-A21. -/
theorem test_sltu : seen (start [(8, 0xFFFFFFFF#32), (9, 0x00000001#32)]) 0x0109502B
    (fun t => (t.reg 10, t.pc, t.runState)) = some (0x00000000#32, 0x00400004#32, .running) := by decide
/-- V-A22. -/
theorem test_slti : seen (start [(8, 0xFFFFFFFE#32)]) 0x290AFFFF
    (fun t => (t.reg 10, t.pc, t.runState)) = some (0x00000001#32, 0x00400004#32, .running) := by decide
/-- V-A24. -/
theorem test_sltiu_sign_extends : seen (start [(8, 0x7FFFFFFF#32)]) 0x2D0A8000
    (fun t => (t.reg 10, t.pc, t.runState)) = some (0x00000001#32, 0x00400004#32, .running) := by decide
/-- V-A25. -/
theorem test_sll : seen (start [(8, 0x00000003#32)]) 0x000857C0
    (fun t => (t.reg 10, t.pc, t.runState)) = some (0x80000000#32, 0x00400004#32, .running) := by decide
/-- V-A26. -/
theorem test_srl : seen (start [(8, 0x80000000#32)]) 0x00085102
    (fun t => (t.reg 10, t.pc, t.runState)) = some (0x08000000#32, 0x00400004#32, .running) := by decide
/-- V-A27. -/
theorem test_sra : seen (start [(8, 0x80000000#32)]) 0x00085103
    (fun t => (t.reg 10, t.pc, t.runState)) = some (0xF8000000#32, 0x00400004#32, .running) := by decide
/-- V-A28. -/
theorem test_sra_by_zero : seen (start [(8, 0x80000000#32)]) 0x00085003
    (fun t => (t.reg 10, t.pc, t.runState)) = some (0x80000000#32, 0x00400004#32, .running) := by decide
/-- V-A29. -/
theorem test_sllv_low_five_bits : seen (start [(8, 0x00000001#32), (9, 0x00000021#32)]) 0x01285004
    (fun t => (t.reg 10, t.pc, t.runState)) = some (0x00000002#32, 0x00400004#32, .running) := by decide
/-- V-A30. -/
theorem test_srlv_by_31 : seen (start [(8, 0x80000000#32), (9, 0xFFFFFFFF#32)]) 0x01285006
    (fun t => (t.reg 10, t.pc, t.runState)) = some (0x00000001#32, 0x00400004#32, .running) := by decide
/-- V-A31. -/
theorem test_srav_by_31 : seen (start [(8, 0x80000000#32), (9, 0x0000001F#32)]) 0x01285007
    (fun t => (t.reg 10, t.pc, t.runState)) = some (0xFFFFFFFF#32, 0x00400004#32, .running) := by decide
/-- V-A32. -/
theorem test_movz_writes : seen (start [(8, 0x00000007#32), (9, 0x00000000#32), (10, 0x00000001#32)]) 0x0109500A
    (fun t => (t.reg 10, t.pc, t.runState)) = some (0x00000007#32, 0x00400004#32, .running) := by decide
/-- V-A33. -/
theorem test_movz_keeps : seen (start [(8, 0x00000007#32), (9, 0x00000001#32), (10, 0x00000001#32)]) 0x0109500A
    (fun t => (t.reg 10, t.pc, t.runState)) = some (0x00000001#32, 0x00400004#32, .running) := by decide
/-- V-A34. -/
theorem test_movn_writes : seen (start [(8, 0x00000007#32), (9, 0x00000001#32), (10, 0x00000001#32)]) 0x0109500B
    (fun t => (t.reg 10, t.pc, t.runState)) = some (0x00000007#32, 0x00400004#32, .running) := by decide
/-- V-A35. -/
theorem test_clz_of_zero : seen (start [(8, 0x00000000#32)]) 0x710A5020
    (fun t => (t.reg 10, t.pc, t.runState)) = some (0x00000020#32, 0x00400004#32, .running) := by decide
/-- V-A36. -/
theorem test_clz : seen (start [(8, 0x00010000#32)]) 0x710A5020
    (fun t => (t.reg 10, t.pc, t.runState)) = some (0x0000000F#32, 0x00400004#32, .running) := by decide
/-- V-A37. -/
theorem test_clo_of_ones : seen (start [(8, 0xFFFFFFFF#32)]) 0x710A5021
    (fun t => (t.reg 10, t.pc, t.runState)) = some (0x00000020#32, 0x00400004#32, .running) := by decide
/-- V-A38. -/
theorem test_clo : seen (start [(8, 0xFFF00000#32)]) 0x710A5021
    (fun t => (t.reg 10, t.pc, t.runState)) = some (0x0000000C#32, 0x00400004#32, .running) := by decide
/-- V-A39. -/
theorem test_nop : seen (start []) 0x00000000
    (fun t => (t.gpr, t.pc, t.status, t.mem)) = some (resetGpr, 0x00400004#32, 0x0000FF11#32, []) := by decide
/-- V-A11: a write to x[0] is discarded. -/
theorem test_register_zero : seen (start [(8, 5#32), (9, 6#32)]) 0x01090020
    (fun t => (t.reg 0, t.pc)) = some (0x00000000#32, 0x00400004#32) := by decide

/-! ### 41_muldiv.md, 95_test_vectors.md 2.2 -/

/-- V-M1. -/
theorem test_mult : seen (start [(8, 0xFFFFFFFF#32), (9, 0xFFFFFFFF#32)]) 0x01090018
    (fun t => (t.hi, t.lo, t.pc)) = some (0x00000000#32, 0x00000001#32, 0x00400004#32) := by decide
/-- V-M4. -/
theorem test_mult_min : seen (start [(8, 0x80000000#32), (9, 0xFFFFFFFF#32)]) 0x01090018
    (fun t => (t.hi, t.lo, t.pc)) = some (0x00000000#32, 0x80000000#32, 0x00400004#32) := by decide
/-- V-M2. -/
theorem test_multu : seen (start [(8, 0xFFFFFFFF#32), (9, 0xFFFFFFFF#32)]) 0x01090019
    (fun t => (t.hi, t.lo, t.pc)) = some (0xFFFFFFFE#32, 0x00000001#32, 0x00400004#32) := by decide
/-- V-M6. -/
theorem test_div_truncates : seen (start [(8, 0xFFFFFFF9#32), (9, 0x00000002#32)]) 0x0109001A
    (fun t => (t.hi, t.lo, t.pc)) = some (0xFFFFFFFF#32, 0xFFFFFFFD#32, 0x00400004#32) := by decide
/-- V-M8. -/
theorem test_div_min : seen (start [(8, 0x80000000#32), (9, 0xFFFFFFFF#32)]) 0x0109001A
    (fun t => (t.hi, t.lo, t.pc)) = some (0x00000000#32, 0x80000000#32, 0x00400004#32) := by decide
/-- V-M10. -/
theorem test_divu : seen (start [(8, 0xFFFFFFFF#32), (9, 0x00000002#32)]) 0x0109001B
    (fun t => (t.hi, t.lo, t.pc)) = some (0x00000001#32, 0x7FFFFFFF#32, 0x00400004#32) := by decide
/-- 41_muldiv.md R140: a division by zero raises nothing. -/
theorem test_divu_by_zero_goes_on : seen (start [(8, 1#32), (9, 0#32)]) 0x0109001B
    (fun t => (t.pc, t.drawCount, t.runState)) = some (0x00400004#32, 1, .running) := by rfl
/-- V-M11. -/
theorem test_mul_wraps : seen (start [(8, 0x00010000#32), (9, 0x00010000#32)]) 0x71095002
    (fun t => (t.reg 10, t.pc)) = some (0x00000000#32, 0x00400004#32) := by rfl
/-- V-M12. -/
theorem test_mul : seen (start [(8, 0xFFFFFFFD#32), (9, 0x00000005#32)]) 0x71095002
    (fun t => (t.reg 10, t.pc)) = some (0xFFFFFFF1#32, 0x00400004#32) := by rfl
/-- V-M13. -/
theorem test_madd : seen (start [(8, 0xFFFFFFFF#32), (9, 0x00000001#32)]) 0x71090000
    (fun t => (t.hi, t.lo, t.pc)) = some (0xFFFFFFFF#32, 0xFFFFFFFF#32, 0x00400004#32) := by decide
/-- V-M14. -/
theorem test_maddu_carries : seen { start [(8, 0xFFFFFFFF#32), (9, 0x00000001#32)] with hi := 0x00000000#32, lo := 0x00000001#32 } 0x71090001
    (fun t => (t.hi, t.lo, t.pc)) = some (0x00000001#32, 0x00000000#32, 0x00400004#32) := by decide
/-- V-M15. -/
theorem test_msub : seen (start [(8, 0x00000001#32), (9, 0x00000001#32)]) 0x71090004
    (fun t => (t.hi, t.lo, t.pc)) = some (0xFFFFFFFF#32, 0xFFFFFFFF#32, 0x00400004#32) := by decide
/-- V-M16. -/
theorem test_msubu_wraps : seen { start [(8, 0x00000002#32), (9, 0x00000003#32)] with hi := 0x00000000#32, lo := 0x00000005#32 } 0x71090005
    (fun t => (t.hi, t.lo, t.pc)) = some (0xFFFFFFFF#32, 0xFFFFFFFF#32, 0x00400004#32) := by decide
/-- V-M17. -/
theorem test_mfhi : seen { start [] with hi := 0x12345678#32 } 0x00005010
    (fun t => (t.reg 10, t.hi)) = some (0x12345678#32, 0x12345678#32) := by decide
/-- 41_muldiv.md R146. -/
theorem test_mflo : seen { start [] with hi := 1#32, lo := 0x12345678#32 } 0x00005012
    (fun t => (t.reg 10, t.lo)) = some (0x12345678#32, 0x12345678#32) := by decide
/-- 41_muldiv.md R147. -/
theorem test_mthi : seen { start [(8, 0xCAFEBABE#32)] with hi := 0x00000001#32, lo := 0x00000002#32 } 0x01000011
    (fun t => (t.hi, t.lo, t.pc)) = some (0xCAFEBABE#32, 0x00000002#32, 0x00400004#32) := by decide
/-- V-M18. -/
theorem test_mtlo : seen { start [(8, 0xCAFEBABE#32)] with hi := 0x00000001#32, lo := 0x00000002#32 } 0x01000013
    (fun t => (t.hi, t.lo, t.pc)) = some (0x00000001#32, 0xCAFEBABE#32, 0x00400004#32) := by decide

/-! ### 42_loadstore.md, 95_test_vectors.md 2.3 -/

/-- V-L1. -/
theorem test_lw : seen (dataStart []) 0x8D090000
    (fun t => (t.reg 9, t.pc)) = some (0x84332211#32, 0x00400004#32) := by decide
/-- V-L7. -/
theorem test_lw_unaligned : seen (dataStart []) 0x8D090002
    (fun t => (t.reg 9, t.badVAddr, t.cause, reason t)) = some (0x00000000#32, 0x10010002#32, 0x00000010#32, some .addressErrorLoad) := by decide
/-- V-L2. -/
theorem test_lb : seen (dataStart []) 0x81090003
    (fun t => (t.reg 9, t.pc)) = some (0xFFFFFF84#32, 0x00400004#32) := by decide
/-- V-L3. -/
theorem test_lbu : seen (dataStart []) 0x91090003
    (fun t => (t.reg 9, t.pc)) = some (0x00000084#32, 0x00400004#32) := by decide
/-- V-L4. -/
theorem test_lh : seen (dataStart []) 0x85090002
    (fun t => (t.reg 9, t.pc)) = some (0xFFFF8433#32, 0x00400004#32) := by decide
/-- V-L6. -/
theorem test_lh_unaligned : seen (dataStart []) 0x85090001
    (fun t => (t.reg 9, t.badVAddr, t.cause, reason t)) = some (0x00000000#32, 0x10010001#32, 0x00000010#32, some .addressErrorLoad) := by decide
/-- V-L5. -/
theorem test_lhu : seen (dataStart []) 0x95090002
    (fun t => (t.reg 9, t.pc)) = some (0x00008433#32, 0x00400004#32) := by decide
/-- 60_exceptions.md R253: no device at 0xFFFF0000. -/
theorem test_lbu_device_window : seen (start [(8, 0xFFFF0000#32)]) 0x91090000
    (fun t => (t.reg 9, t.badVAddr, t.cause, reason t)) = some (0x00000000#32, 0xFFFF0000#32, 0x00000010#32, some .addressErrorLoad) := by decide
/-- V-L17. -/
theorem test_lwl : seen (dataStart [(9, 0xAABBCCDD#32)]) 0x89090002
    (fun t => (t.reg 9, t.pc)) = some (0x332211DD#32, 0x00400004#32) := by decide
/-- V-L19. -/
theorem test_lwl_whole : seen (dataStart [(9, 0xAABBCCDD#32)]) 0x89090003
    (fun t => (t.reg 9, t.pc)) = some (0x84332211#32, 0x00400004#32) := by decide
/-- V-L18. -/
theorem test_lwr : seen (dataStart [(9, 0xAABBCCDD#32)]) 0x99090002
    (fun t => (t.reg 9, t.pc)) = some (0xAABB8433#32, 0x00400004#32) := by decide
/-- V-L20. -/
theorem test_lwr_whole : seen (dataStart [(9, 0xAABBCCDD#32)]) 0x99090000
    (fun t => (t.reg 9, t.pc)) = some (0x84332211#32, 0x00400004#32) := by decide
/-- V-L16. -/
theorem test_sb : seen (start [(8, 0x10010000#32), (9, 0xAABBCCDD#32)]) 0xA1090001
    (fun t => (four t 0x10010000#32, Memory.wf t.mem)) = some ([0x00#8, 0xDD#8, 0x00#8, 0x00#8], true) := by decide
/-- V-L15. -/
theorem test_sh : seen (start [(8, 0x10010000#32), (9, 0xAABBCCDD#32)]) 0xA5090002
    (fun t => (four t 0x10010000#32, Memory.wf t.mem)) = some ([0x00#8, 0x00#8, 0xDD#8, 0xCC#8], true) := by decide
/-- V-L11: text is not writable. -/
theorem test_sw_text : seen (start [(8, 0x00400000#32), (9, 5#32)]) 0xAD090000
    (fun t => (four t 0x00400000#32, t.badVAddr, t.cause, reason t)) = some ([0x00#8, 0x00#8, 0x09#8, 0xAD#8], 0x00400000#32, 0x00000014#32, some .addressErrorStore) := by decide
/-- P2: the least significant byte first. -/
theorem test_sw : seen (start [(8, 0x10010000#32), (9, 0x11223344#32)]) 0xAD090000
    (fun t => (four t 0x10010000#32, Memory.wf t.mem)) = some ([0x44#8, 0x33#8, 0x22#8, 0x11#8], true) := by decide
/-- V-L21. -/
theorem test_swl : seen (dataStart [(9, 0xAABBCCDD#32)]) 0xA9090002
    (fun t => (four t 0x10010000#32, Memory.wf t.mem)) = some ([0xCC#8, 0xBB#8, 0xAA#8, 0x84#8], true) := by decide
/-- V-L22. -/
theorem test_swr : seen (dataStart [(9, 0xAABBCCDD#32)]) 0xB9090002
    (fun t => (four t 0x10010000#32, Memory.wf t.mem)) = some ([0x11#8, 0x22#8, 0xDD#8, 0xCC#8], true) := by decide
/-- 42_loadstore.md R173. -/
theorem test_ll : seen (dataStart []) 0xC1090000
    (fun t => (t.reg 9, t.llBit)) = some (0x84332211#32, true) := by decide
/-- V-L23. -/
theorem test_sc_fails : seen (dataStart [(9, 0x55#32)]) 0xE1090000
    (fun t => (t.reg 9, t.llBit, four t 0x10010000#32)) = some (0x00000000#32, false, [0x11#8, 0x22#8, 0x33#8, 0x84#8]) := by decide
/-- 42_loadstore.md R174, as in V-L24. -/
theorem test_sc_succeeds : seen { dataStart [(9, 0x55#32)] with llBit := true } 0xE1090000
    (fun t => (t.reg 9, t.llBit, four t 0x10010000#32)) = some (0x00000001#32, false, [0x55#8, 0x00#8, 0x00#8, 0x00#8]) := by decide

/-! ### 43_control.md, 95_test_vectors.md 2.4 -/

/-- V-B1. -/
theorem test_beq_taken : seen (start [(8, 0x00000000#32), (9, 0x00000000#32)]) 0x11090010
    (fun t => (t.pc, pending t)) = some (0x00400004#32, some (0x00400044#32, 0x00400000#32)) := by decide
/-- V-B2. -/
theorem test_beq_not_taken : seen (start [(8, 0x00000001#32), (9, 0x00000000#32)]) 0x11090010
    (fun t => (t.pc, pending t)) = some (0x00400004#32, some (0x00400008#32, 0x00400000#32)) := by decide
/-- V-B3. -/
theorem test_bne_not_taken : seen (start [(8, 0x00000000#32), (9, 0x00000000#32)]) 0x15090010
    (fun t => (t.pc, pending t)) = some (0x00400004#32, some (0x00400008#32, 0x00400000#32)) := by decide
/-- V-B4. -/
theorem test_bne_taken : seen (start [(8, 0x00000001#32), (9, 0x00000000#32)]) 0x15090010
    (fun t => (t.pc, pending t)) = some (0x00400004#32, some (0x00400044#32, 0x00400000#32)) := by decide
/-- V-B6. -/
theorem test_blez_zero : seen (start [(8, 0x00000000#32)]) 0x1900FFFF
    (fun t => (t.pc, pending t)) = some (0x00400004#32, some (0x00400000#32, 0x00400000#32)) := by decide
/-- V-B7. -/
theorem test_blez_not_taken : seen (start [(8, 0x00000001#32)]) 0x1900FFFF
    (fun t => (t.pc, pending t)) = some (0x00400004#32, some (0x00400008#32, 0x00400000#32)) := by decide
/-- V-B9. -/
theorem test_bgtz_zero : seen (start [(8, 0x00000000#32)]) 0x1D00FFFF
    (fun t => (t.pc, pending t)) = some (0x00400004#32, some (0x00400008#32, 0x00400000#32)) := by decide
/-- V-B10. -/
theorem test_bgtz_taken : seen (start [(8, 0x00000001#32)]) 0x1D00FFFF
    (fun t => (t.pc, pending t)) = some (0x00400004#32, some (0x00400000#32, 0x00400000#32)) := by decide
/-- V-B11. -/
theorem test_bltz_far : seen (start [(8, 0xFFFFFFFF#32)]) 0x05007FFF
    (fun t => (t.pc, pending t)) = some (0x00400004#32, some (0x00420000#32, 0x00400000#32)) := by decide
/-- V-B12. -/
theorem test_bltz_zero : seen (start [(8, 0x00000000#32)]) 0x05007FFF
    (fun t => (t.pc, pending t)) = some (0x00400004#32, some (0x00400008#32, 0x00400000#32)) := by decide
/-- V-B13. -/
theorem test_bgez_negative : seen (start [(8, 0xFFFFFFFF#32)]) 0x05018000
    (fun t => (t.pc, pending t)) = some (0x00400004#32, some (0x00400008#32, 0x00400000#32)) := by decide
/-- V-B14. -/
theorem test_bgez_far : seen (start [(8, 0x00000000#32)]) 0x05018000
    (fun t => (t.pc, pending t)) = some (0x00400004#32, some (0x003E0004#32, 0x00400000#32)) := by decide
/-- V-B15. -/
theorem test_bltzal_taken : seen (start [(8, 0xFFFFFFFF#32)]) 0x05100004
    (fun t => (t.pc, pending t, t.reg 31)) = some (0x00400004#32, some (0x00400014#32, 0x00400000#32), 0x00400008#32) := by decide
/-- V-B16. -/
theorem test_bltzal_links_anyway : seen (start [(8, 0x00000000#32)]) 0x05100004
    (fun t => (t.pc, pending t, t.reg 31)) = some (0x00400004#32, some (0x00400008#32, 0x00400000#32), 0x00400008#32) := by decide
/-- V-B17. -/
theorem test_bgezal_links_anyway : seen (start [(8, 0xFFFFFFFF#32)]) 0x05110004
    (fun t => (t.pc, pending t, t.reg 31)) = some (0x00400004#32, some (0x00400008#32, 0x00400000#32), 0x00400008#32) := by decide
/-- V-B18. -/
theorem test_bgezal_taken : seen (start [(8, 0x00000001#32)]) 0x05110004
    (fun t => (t.pc, pending t, t.reg 31)) = some (0x00400004#32, some (0x00400014#32, 0x00400000#32), 0x00400008#32) := by decide
/-- V-B23: the target has the top bits of the delay slot's address. -/
theorem test_j_boundary : seen { start [] with pc := 0x0FFFFFFC#32 } 0x0BFFFFFF
    (fun t => (t.pc, pending t)) = some (0x10000000#32, some (0x1FFFFFFC#32, 0x0FFFFFFC#32)) := by decide
/-- V-B19. -/
theorem test_jal : seen (start []) 0x0C100040
    (fun t => (t.pc, pending t, t.reg 31)) = some (0x00400004#32, some (0x00400100#32, 0x00400000#32), 0x00400008#32) := by decide
/-- V-B20. -/
theorem test_jr_unaligned : seen (start [(8, 0x00400101#32)]) 0x01000008
    (fun t => (t.pc, pending t)) = some (0x00400004#32, some (0x00400101#32, 0x00400000#32)) := by decide
/-- V-B21. -/
theorem test_jalr : seen (start [(8, 0x00400100#32)]) 0x01004809
    (fun t => (pending t, t.reg 9, t.reg 31)) = some (some (0x00400100#32, 0x00400000#32), 0x00400008#32, 0x00000000#32) := by decide
/-- V-B22. -/
theorem test_jalr_same_register : seen (start [(8, 0x00400100#32)]) 0x01004009
    (fun t => (pending t, t.reg 8)) = some (some (0x00400100#32, 0x00400000#32), 0x00400008#32) := by decide
/-- W5: the slot runs, then control goes to the target. -/
theorem test_delay_slot : seen { start [(8, 0#32)] with pc := 0x00400004#32, pend := some { target := 0x0040000C#32, branch := 0x00400000#32 } } 0x25080001
    (fun t => (t.reg 8, t.pc, pending t)) = some (0x00000001#32, 0x0040000C#32, none) := by decide
/-- V-B25. -/
theorem test_jump_in_delay_slot : seen { start [] with pc := 0x00400004#32, pend := some { target := 0x00400024#32, branch := 0x00400000#32 } } 0x08100000
    (fun t => (t.pc, t.cause, t.epc, t.status, reason t)) = some (0x00400004#32, 0x80000028#32, 0x00400000#32, 0x0000FF13#32, some .delaySlotControlTransfer) := by decide

/-! ### 44_system.md, 95_test_vectors.md 2.5 -/

/-- V-T1. -/
theorem test_teq : seen (start [(8, 0x00000003#32), (9, 0x00000003#32)]) 0x01090034
    (fun t => (t.pc, t.cause, t.epc, t.status, reason t)) = some (0x00400000#32, 0x00000034#32, 0x00400000#32, 0x0000FF13#32, some .unhandledTrap) := by decide
/-- V-T2. -/
theorem test_tne : seen (start [(8, 0x00000003#32), (9, 0x00000003#32)]) 0x01090036
    (fun t => (t.pc, t.cause, t.epc, t.status, reason t)) = some (0x00400004#32, 0x00000000#32, 0x00000000#32, 0x0000FF11#32, none) := by decide
/-- V-T3. -/
theorem test_tge : seen (start [(8, 0xFFFFFFFF#32), (9, 0x00000001#32)]) 0x01090030
    (fun t => (t.pc, t.cause, t.epc, t.status, reason t)) = some (0x00400004#32, 0x00000000#32, 0x00000000#32, 0x0000FF11#32, none) := by decide
/-- V-T4. -/
theorem test_tgeu : seen (start [(8, 0xFFFFFFFF#32), (9, 0x00000001#32)]) 0x01090031
    (fun t => (t.pc, t.cause, t.epc, t.status, reason t)) = some (0x00400000#32, 0x00000034#32, 0x00400000#32, 0x0000FF13#32, some .unhandledTrap) := by decide
/-- V-T5. -/
theorem test_tlt : seen (start [(8, 0xFFFFFFFF#32), (9, 0x00000001#32)]) 0x01090032
    (fun t => (t.pc, t.cause, t.epc, t.status, reason t)) = some (0x00400000#32, 0x00000034#32, 0x00400000#32, 0x0000FF13#32, some .unhandledTrap) := by decide
/-- V-T6. -/
theorem test_tltu : seen (start [(8, 0xFFFFFFFF#32), (9, 0x00000001#32)]) 0x01090033
    (fun t => (t.pc, t.cause, t.epc, t.status, reason t)) = some (0x00400004#32, 0x00000000#32, 0x00000000#32, 0x0000FF11#32, none) := by decide
/-- V-T7. -/
theorem test_teqi : seen (start [(8, 0xFFFFFFFF#32)]) 0x050CFFFF
    (fun t => (t.pc, t.cause, t.epc, t.status, reason t)) = some (0x00400000#32, 0x00000034#32, 0x00400000#32, 0x0000FF13#32, some .unhandledTrap) := by decide
/-- V-T8. -/
theorem test_tnei : seen (start [(8, 0xFFFFFFFF#32)]) 0x050EFFFF
    (fun t => (t.pc, t.cause, t.epc, t.status, reason t)) = some (0x00400004#32, 0x00000000#32, 0x00000000#32, 0x0000FF11#32, none) := by decide
/-- V-T9. -/
theorem test_tgei : seen (start [(8, 0x00000000#32)]) 0x0508FFFF
    (fun t => (t.pc, t.cause, t.epc, t.status, reason t)) = some (0x00400000#32, 0x00000034#32, 0x00400000#32, 0x0000FF13#32, some .unhandledTrap) := by decide
/-- V-T10. -/
theorem test_tgeiu : seen (start [(8, 0x00000000#32)]) 0x0509FFFF
    (fun t => (t.pc, t.cause, t.epc, t.status, reason t)) = some (0x00400004#32, 0x00000000#32, 0x00000000#32, 0x0000FF11#32, none) := by decide
/-- V-T11. -/
theorem test_tlti : seen (start [(8, 0x00000000#32)]) 0x050AFFFF
    (fun t => (t.pc, t.cause, t.epc, t.status, reason t)) = some (0x00400004#32, 0x00000000#32, 0x00000000#32, 0x0000FF11#32, none) := by decide
/-- V-T12. -/
theorem test_tltiu : seen (start [(8, 0x00000000#32)]) 0x050BFFFF
    (fun t => (t.pc, t.cause, t.epc, t.status, reason t)) = some (0x00400000#32, 0x00000034#32, 0x00400000#32, 0x0000FF13#32, some .unhandledTrap) := by decide
/-- V-T13. -/
theorem test_break : seen (start []) 0x0000014D
    (fun t => (t.pc, t.cause, t.epc, t.status, reason t)) = some (0x00400000#32, 0x00000024#32, 0x00400000#32, 0x0000FF13#32, some .unhandledBreakpoint) := by decide
/-- V-T14. -/
theorem test_eret : seen { start [] with epc := 0x00400004#32, status := 0x0000FF13#32, llBit := true } 0x42000018
    (fun t => (t.pc, pending t, t.status, t.llBit)) = some (0x00400004#32, none, 0x0000FF11#32, false) := by decide
/-- V-T15. -/
theorem test_mfc0 : seen (start []) 0x40086000
    (fun t => (t.reg 8)) = some 0x0000FF11#32 := by decide
/-- V-T16. -/
theorem test_mtc0 : seen (start [(8, 0x0000FF01#32)]) 0x40886000
    (fun t => (t.status, t.kernel)) = some (0x0000FF01#32, true) := by decide
/-- V-T17. -/
theorem test_invalid_opcode : seen (start []) 0x40084800
    (fun t => (t.pc, t.cause, reason t)) = some (0x00400000#32, 0x00000028#32, some .invalidOpcode) := by decide
/-- V-S1. -/
theorem test_service_print_int : seen (start [(2, 1#32), (4, 0x80000000#32)]) 0x0000000C
    (fun t => t.consoleOut) = some [0x2D#8, 0x32#8, 0x31#8, 0x34#8, 0x37#8, 0x34#8, 0x38#8, 0x33#8, 0x36#8, 0x34#8, 0x38#8] := by decide
/-- V-S2. -/
theorem test_service_print_string : seen (withBytes (start [(2, 4#32), (4, 0x10010000#32)]) 0x10010000#32 [0x48#8, 0x69#8, 0x00#8]) 0x0000000C
    (fun t => t.consoleOut) = some [0x48#8, 0x69#8] := by decide
/-- V-S3. -/
theorem test_service_read_int : seen { start [(2, 5#32)] with consoleInts := [none] } 0x0000000C
    (fun t => (t.reg 2, t.cause, reason t)) = some (0x00000005#32, 0x00000020#32, some .syscallError) := by decide
/-- V-S4. -/
theorem test_service_allocate : seen (start [(2, 9#32), (4, 5#32)]) 0x0000000C
    (fun t => (t.reg 2, t.heapTop)) = some (0x10040000#32, 0x10040008#32) := by decide
/-- V-S5. -/
theorem test_service_unknown : seen (start [(2, 11#32)]) 0x0000000C
    (fun t => (t.cause, t.epc, reason t)) = some (0x00000020#32, 0x00400000#32, some .syscallError) := by decide
/-- V-S6. -/
theorem test_service_allocate_negative : seen (start [(2, 9#32), (4, 0xFFFFFFFF#32)]) 0x0000000C
    (fun t => (t.reg 2, t.heapTop, reason t)) = some (0x00000009#32, 0x10040000#32, some .syscallError) := by decide
/-- V-S7. -/
theorem test_service_read_string : seen { start [(2, 8#32), (4, 0x10010000#32), (5, 4#32)] with consoleStrs := [[0x68#8, 0x65#8, 0x6C#8, 0x6C#8, 0x6F#8]] } 0x0000000C
    (fun t => (four t 0x10010000#32, t.reg 2)) = some ([0x68#8, 0x65#8, 0x6C#8, 0x00#8], 0x00000008#32) := by decide
/-- V-S8. -/
theorem test_service_exit : seen (start [(2, 10#32)]) 0x0000000C
    (fun t => (t.runState, t.exitCode, t.pc)) = some (.halted, some 0x00000000#32, 0x00400000#32) := by decide

/-! ### States that meet the hypotheses of the obligations, clause by clause, at boundary values -/

/-- An image of a `break` and a data byte, with an `eret` as handler (60_exceptions.md R247). -/
def handlerImage : Image :=
  { text := [(0x00400000#32, 0x0000000D#32), (0x80000180#32, 0x42000018#32)], data := [(0xFFFEFFFF#32, 0x01#8)],
    entry := 0x00400000#32, symbols := [] }

/-- A running state with the image of a handler installed. -/
def handlerStart : State := { State.reset.install handlerImage with runState := .running }

/-- The power-on state but for its run state. -/
def inRun (r : RunState) : State := { State.reset with runState := r }

/-- A state in the delay slot of a branch at 0x00400000. -/
def inSlot : State :=
  { inRun .running with pc := 0x00400004#32, pend := some { target := 0x00400010#32, branch := 0x00400000#32 } }

theorem test_hyp_DecodeOfEncode : Instr.wellFormed (.sll 0 0 1) = true ∧ Instr.wellFormed (.mfc0 31 14) = true := by decide

theorem test_hyp_EncodeOfDecode :
    decode 0x03FFFFCC#32 = .ok .syscall ∧ decode 0x70005020#32 = .ok (.clz 10 0) ∧ decode 0x73FFF821#32 = .ok (.clo 31 31) ∧
      decode 0xE3FFFFFF#32 = .ok (.sc 31 31 0xFFFF) := by decide

theorem test_hyp_DecodeFollowsTheTable :
    decode 0xFC000000#32 = .error (.invalidOpcode 0xFC000000#32) ∧ decode 0x03FFF825#32 = .ok (.or 31 31 31) ∧
    (0x03FFF825#32 &&& (Instr.or 0 0 0).mask = (Instr.or 0 0 0).matchBits ∧ (Instr.or 0 0 0).extra 0x03FFF825#32 = true) ∧
    (∀ i : Instr, ¬(0xFC000000#32 &&& i.mask = i.matchBits ∧ i.extra 0xFC000000#32 = true)) := by
  refine ⟨by decide, by decide, by decide, fun i => ?_⟩
  cases i <;> (rintro ⟨h, -⟩; dsimp only [Instr.mask, Instr.matchBits] at h; exact absurd h (by decide))

theorem test_hyp_ExcludedEncodingsRefused :
    opOf 0x47FFFFFF#32 = 0x11#6 ∧ opOf 0xFFFFFFFF#32 = 0x3F#6 ∧
    (opOf 0x00000001#32 = 0x00#6 ∧ functOf 0x00000001#32 = 0x01#6) ∧
    (opOf 0x00000038#32 = 0x00#6 ∧ (functOf 0x00000038#32).toNat = 0x38) ∧
    (opOf 0x04020000#32 = 0x01#6 ∧ rtOf 0x04020000#32 = 0x02#5) ∧
    (opOf 0x04120000#32 = 0x01#6 ∧ (rtOf 0x04120000#32).toNat = 0x12) ∧
    (opOf 0x70000003#32 = 0x1C#6 ∧ functOf 0x70000003#32 ∉ [0x00#6, 0x01#6, 0x02#6, 0x04#6, 0x05#6, 0x20#6, 0x21#6]) ∧
    (opOf 0x40200000#32 = 0x10#6 ∧ rsOf 0x40200000#32 ∉ [0x00#5, 0x04#5, 0x10#5]) ∧
    (opOf 0x42000019#32 = 0x10#6 ∧ rsOf 0x42000019#32 = 0x10#5) ∧
    (opOf 0x40086001#32 = 0x10#6 ∧ rsOf 0x40086001#32 ∈ [0x00#5, 0x04#5] ∧ (0x40086001#32).extractLsb' 0 11 ≠ 0#11) ∧
    (opOf 0x40884800#32 = 0x10#6 ∧ rsOf 0x40884800#32 ∈ [0x00#5, 0x04#5] ∧
      rdOf 0x40884800#32 ∉ [8#5, 12#5, 13#5, 14#5]) := by decide

theorem test_hyp_ReservedFieldsMustBeZero :
    (opOf 0x00200000#32 = 0x00#6 ∧ functOf 0x00200000#32 = 0x00#6 ∧ rsOf 0x00200000#32 ≠ 0#5) ∧
    (opOf 0x3C200000#32 = 0x0F#6 ∧ rsOf 0x3C200000#32 ≠ 0#5) ∧
    (opOf 0x00000060#32 = 0x00#6 ∧ functOf 0x00000060#32 = 0x20#6 ∧ saOf 0x00000060#32 ≠ 0#5) ∧
    (opOf 0x70000042#32 = 0x1C#6 ∧ functOf 0x70000042#32 = 0x02#6 ∧ saOf 0x70000042#32 ≠ 0#5) ∧
    (opOf 0x00000808#32 = 0x00#6 ∧ functOf 0x00000808#32 = 0x08#6 ∧ rdOf 0x00000808#32 ≠ 0#5) ∧
    (opOf 0x00200010#32 = 0x00#6 ∧ functOf 0x00200010#32 = 0x10#6 ∧ rsOf 0x00200010#32 ≠ 0#5) ∧
    (opOf 0x00000818#32 = 0x00#6 ∧ functOf 0x00000818#32 = 0x18#6 ∧ rdOf 0x00000818#32 ≠ 0#5) ∧
    (opOf 0x70000040#32 = 0x1C#6 ∧ functOf 0x70000040#32 = 0x00#6 ∧ saOf 0x70000040#32 ≠ 0#5) ∧
    (opOf 0x00010009#32 = 0x00#6 ∧ functOf 0x00010009#32 = 0x09#6 ∧ rtOf 0x00010009#32 ≠ 0#5) ∧
    (opOf 0x1C010000#32 = 0x07#6 ∧ rtOf 0x1C010000#32 ≠ 0#5) ∧
    (opOf 0x40800001#32 = 0x10#6 ∧ rsOf 0x40800001#32 = 0x04#5 ∧ (0x40800001#32).extractLsb' 0 11 ≠ 0#11) := by decide

theorem test_hyp_StepRunsDecodedInstruction :
    let s := { State.reset.withFetchWord 32 0x3C0A8001 with breakpoints := [0x00400000#32], skipBreak := true }
    s.commands = [] ∧ s.runState = .running ∧ (s.pc ∈ s.breakpoints → s.skipBreak = true) ∧
    s.check s.pc .word .fetch = true ∧ s.imageDefines s.pc = true ∧
    decode (wordOfBytes (Memory.byteAt s.mem s.pc) (Memory.byteAt s.mem (s.pc + 1)) (Memory.byteAt s.mem (s.pc + 2))
      (Memory.byteAt s.mem (s.pc + 3))) = .ok (.lui 10 0x8001) := by decide

theorem test_hyp_FetchRule :
    { State.reset with pc := 0x10000000#32 }.check 0x10000000#32 .word .fetch = false ∧
    ({ State.reset with pc := 0x0FFFFFFC#32 }.check 0x0FFFFFFC#32 .word .fetch = true ∧
      { State.reset with pc := 0x0FFFFFFC#32 }.imageDefines 0x0FFFFFFC#32 = false ∧ State.reset.cfg.fetchEmpty = .zeroWord) ∧
    { State.reset with cfg := { fetchEmpty := .halt, enforceKernelPriv := false } }.check 0x8FFFFFFC#32 .word .fetch = true ∧
    (handlerStart.check 0x00400000#32 .word .fetch = true ∧ handlerStart.imageDefines 0x00400000#32 = true) := by decide

theorem test_hyp_InvalidOpcodeEndsTheRun :
    (State.reset.withFetchWord 32 0xFC000000).fetch 0x00400000#32 = .word 0xFC000000#32 ∧
      decode 0xFC000000#32 = .error (.invalidOpcode 0xFC000000#32) := by decide

theorem test_hyp_TrappingAddAndSubtract :
    (-(2 ^ 31) ≤ ((start [(8, 0x7FFFFFFF#32)]).reg 8).toInt + ((start [(8, 0x7FFFFFFF#32)]).reg 0).toInt ∧
      ((start [(8, 0x7FFFFFFF#32)]).reg 8).toInt + ((start [(8, 0x7FFFFFFF#32)]).reg 0).toInt < 2 ^ 31) ∧
    ¬(((start [(8, 0x7FFFFFFF#32)]).reg 8).toInt + (1#16).toInt < 2 ^ 31) ∧
    ¬(-(2 ^ 31) ≤ ((start [(8, 0x80000000#32), (9, 1#32)]).reg 8).toInt - ((start [(8, 0x80000000#32), (9, 1#32)]).reg 9).toInt) := by
  decide

theorem test_hyp_LogicalResults : (1 : Reg) ≠ 0#5 ∧ decode 0x3C200000#32 = .error (.invalidOpcode 0x3C200000#32) := by decide

theorem test_hyp_ShiftResults :
    ¬((0 : Reg) = 0#5 ∧ (0 : Reg) = 0#5 ∧ (31 : BitVec 5) = 0#5) ∧ (31 : Reg) ≠ 0#5 ∧ (1 : BitVec 5) ≠ 0#5 := by decide

theorem test_hyp_ConditionalMovesAndNop :
    (start [(9, 0x80000000#32)]).reg 9 ≠ 0#32 ∧ (start []).reg 9 = 0#32 := by decide

theorem test_hyp_DivideResults :
    let s := start [(8, 0x80000000#32), (9, 0xFFFFFFFF#32), (10, 1#32)]
    s.reg 9 ≠ 0#32 ∧ (s.reg 8 = 0x80000000#32 ∧ s.reg 9 = 0xFFFFFFFF#32) ∧
      ¬(s.reg 8 = 0x80000000#32 ∧ s.reg 10 = 0xFFFFFFFF#32) := by decide

theorem test_hyp_DrawnResults : (start [(8, 1#32)]).reg 9 = 0#32 := by decide

theorem test_hyp_LoadResults :
    let s := start [(8, 0x7FFFFFFC#32)]
    0x7FFFFFFF#32 = s.reg 8 + (3#16).signExtend 32 ∧ s.check 0x7FFFFFFF#32 .byte .load = true ∧
      s.check 0x7FFFFFFE#32 .half .load = true ∧ s.check 0x7FFFFFFC#32 .word .load = true ∧
      0x80000000#32 = s.reg 8 + (4#16).signExtend 32 ∧ s.check 0x80000000#32 .byte .load = false ∧
      s.check 0x7FFFFFFF#32 .half .load = false ∧ s.check 0x7FFFFFFE#32 .word .load = false := by decide

theorem test_hyp_PartialLoadResults :
    let s := start [(8, 0x7FFFFFFC#32)]
    (0x7FFFFFFF#32 = s.reg 8 + (3#16).signExtend 32 ∧ 3 = (0x7FFFFFFF#32).toNat % 4 ∧
      0x7FFFFFFC#32 = BitVec.ofNat 32 ((0x7FFFFFFF#32).toNat - 3) ∧ s.check 0x7FFFFFFC#32 .word .load = true) ∧
    (0x80000000#32 = s.reg 8 + (4#16).signExtend 32 ∧ 0 = (0x80000000#32).toNat % 4 ∧
      0x80000000#32 = BitVec.ofNat 32 ((0x80000000#32).toNat - 0) ∧ s.check 0x80000000#32 .word .load = false) := by decide

theorem test_hyp_StoreResults :
    let s := start [(8, 0x10000000#32)]
    Memory.wf s.mem = true ∧ 0x10000000#32 = s.reg 8 + (0#16).signExtend 32 ∧ s.check 0x10000000#32 .byte .store = true ∧
      s.check 0x10000000#32 .half .store = true ∧ s.check 0x10000000#32 .word .store = true ∧
      0x0FFFFFFF#32 = s.reg 8 + (0xFFFF#16).signExtend 32 ∧ s.check 0x0FFFFFFF#32 .byte .store = false ∧
      s.check 0x0FFFFFFE#32 .half .store = false ∧ s.check 0x0FFFFFFC#32 .word .store = false := by decide

theorem test_hyp_PartialStoreResults :
    let s := start [(8, 0x10000000#32)]
    Memory.wf s.mem = true ∧
    (0x10000003#32 = s.reg 8 + (3#16).signExtend 32 ∧ 3 = (0x10000003#32).toNat % 4 ∧
      0x10000000#32 = BitVec.ofNat 32 ((0x10000003#32).toNat - 3) ∧ s.check 0x10000000#32 .word .store = true) ∧
    (0x0FFFFFFF#32 = s.reg 8 + (0xFFFF#16).signExtend 32 ∧ 3 = (0x0FFFFFFF#32).toNat % 4 ∧
      0x0FFFFFFC#32 = BitVec.ofNat 32 ((0x0FFFFFFF#32).toNat - 3) ∧ s.check 0x0FFFFFFC#32 .word .store = false) := by decide

theorem test_hyp_LinkedLoadAndStore :
    let s := { start [(8, 0x10000000#32)] with llBit := true }
    Memory.wf s.mem = true ∧ 0x10000000#32 = s.reg 8 + (0#16).signExtend 32 ∧ s.check 0x10000000#32 .word .load = true ∧
      s.check 0x10000000#32 .word .store = true ∧ s.llBit = true ∧ (start []).llBit = false ∧
      0x0FFFFFFC#32 = s.reg 8 + (0xFFFC#16).signExtend 32 ∧ s.check 0x0FFFFFFC#32 .word .store = false ∧
      s.check 0x10000001#32 .word .load = false ∧ Instr.writesLink .syscall = false ∧
      ran (exec .syscall s) (fun t => t.llBit) = some true := by decide

theorem test_hyp_AccessCheck : (0xFFFFFFFC#32).toNat % widthBytes .word = 0 ∧ 3 < widthBytes .word := by decide

theorem test_hyp_StoreThenLoad :
    let s := start [(8, 0x10000000#32), (9, 0x7FFFFFFC#32)]
    Memory.wf s.mem = true ∧ s.check (s.ea 8 0#16) .word .store = true ∧ s.check (s.ea 9 0#16) .word .store = true ∧
      ∀ t, exec (.sw 9 8 0) s = .next t →
        { t with gpr := s.gpr }.ea 8 3#16 = s.ea 8 0#16 + BitVec.ofNat 32 3 := by
  refine ⟨by decide, by decide, by decide, fun t _ => by rfl⟩

theorem test_hyp_Branches :
    let s := start [(8, 0x80000000#32), (9, 1#32)]
    s.pend = none ∧ s.reg 8 = s.reg 8 ∧ s.reg 8 ≠ s.reg 9 ∧ (s.reg 8).toInt < 0 ∧ (s.reg 0).toInt ≤ 0 ∧ (s.reg 0).toInt ≥ 0 ∧
      (s.reg 9).toInt > 0 ∧ (1 : Reg) ≠ 0#5 := by decide

theorem test_hyp_Jumps : (start [(8, 0xFFFFFFFF#32)]).pend = none ∧ (1 : BitVec 15) ≠ 0#15 := by decide

theorem test_hyp_ControlTransferInDelaySlot :
    inSlot.pend.isSome = true ∧ Instr.isControlTransfer .eret = true ∧ Instr.isControlTransfer .syscall = false ∧
      ran (exec .syscall inSlot) reason = some (some .syscallError) := by decide

theorem test_hyp_DelaySlotRunsOnce :
    (start []).pend = none ∧ Instr.isControlTransfer (.jalr 31 8) = true ∧ Instr.jalr 31 8 ≠ .eret := by decide

theorem test_hyp_PrintIntegerService : (start [(2, 1#32)]).reg 2#5 = 1#32 := by decide

theorem test_hyp_PrintStringService :
    let s := withBytes (start [(2, 4#32), (4, 0x7FFFFFFE#32)]) 0x7FFFFFFE#32 [0x48#8]
    let u := withBytes (start [(2, 4#32), (4, 0x7FFFFFFF#32)]) 0x7FFFFFFF#32 [0x48#8]
    (s.reg 2#5 = 4#32 ∧ (∀ i < 1, s.check (0x7FFFFFFE#32 + BitVec.ofNat 32 i) .byte .load = true ∧
        Memory.byteAt s.mem (0x7FFFFFFE#32 + BitVec.ofNat 32 i) ≠ 0#8) ∧
      s.check (0x7FFFFFFE#32 + BitVec.ofNat 32 1) .byte .load = true ∧
      Memory.byteAt s.mem (0x7FFFFFFE#32 + BitVec.ofNat 32 1) = 0#8) ∧
    (u.reg 2#5 = 4#32 ∧ (∀ i < 1, u.check (0x7FFFFFFF#32 + BitVec.ofNat 32 i) .byte .load = true ∧
        Memory.byteAt u.mem (0x7FFFFFFF#32 + BitVec.ofNat 32 i) ≠ 0#8) ∧
      u.check (0x7FFFFFFF#32 + BitVec.ofNat 32 1) .byte .load = false) := by decide

theorem test_hyp_ReadIntegerService :
    let s := { start [(2, 5#32)] with consoleInts := [none, some 0x80000000#32] }
    s.reg 2#5 = 5#32 ∧ AnswersInt s none { s with consoleInts := [some 0x80000000#32] } ∧
      AnswersInt { s with consoleInts := [some 0x80000000#32] } (some 0x80000000#32) { s with consoleInts := [] } ∧
      AnswersInt (start [(2, 5#32)]) (Config.consoleInt 0) { start [(2, 5#32)] with drawCount := 1 } :=
  ⟨by decide, .inl ⟨_, rfl, rfl⟩, .inl ⟨_, rfl, rfl⟩, .inr ⟨rfl, rfl, rfl⟩⟩

theorem test_hyp_ReadStringService :
    let s := { start [(2, 8#32), (4, 0x7FFFFFFF#32), (5, 2#32)] with consoleStrs := [[], [0x48#8, 0x69#8]] }
    Memory.wf s.mem = true ∧ s.reg 2#5 = 8#32 ∧ 0x7FFFFFFF#32 = s.reg 4#5 ∧ (2 : Int) = (s.reg 5#5).toInt ∧
      (start [(2, 8#32)]).reg 5#5 = 0#32 ∧
      AnswersStr s [] { s with consoleStrs := [[0x48#8, 0x69#8]] } ∧
      AnswersStr { s with consoleStrs := [[0x48#8, 0x69#8]] } [0x48#8, 0x69#8] { s with consoleStrs := [] } ∧
      (∀ i ≤ 0, s.check (0x7FFFFFFF#32 + BitVec.ofNat 32 i) .byte .store = true) ∧
      (((1 : Nat) : Int) = min (2 : Int) (2 - 1) ∧ s.check (0x7FFFFFFF#32 + BitVec.ofNat 32 1) .byte .store = false ∧
        ∀ j < 1, s.check (0x7FFFFFFF#32 + BitVec.ofNat 32 j) .byte .store = true) :=
  ⟨by decide, by decide, by decide, by decide, by decide, .inl ⟨_, rfl, rfl⟩, .inl ⟨_, rfl, rfl⟩, by decide, by decide⟩

theorem test_hyp_AllocateService :
    let s := { start [(2, 9#32), (4, 1#32)] with heapTop := 0x7FFFFFFC#32 }
    s.reg 2#5 = 9#32 ∧ ((start [(4, 0xFFFFFFFF#32)]).reg 4#5).toInt < 0 ∧
      (0 ≤ (s.reg 4#5).toInt ∧ (s.reg 4#5).toInt ≤ ((4 : Nat) : Int) ∧ ((4 : Nat) : Int) < (s.reg 4#5).toInt + 4 ∧ 4 % 4 = 0 ∧
        s.heapTop.toNat + 4 ≤ 0x80000000) ∧
      { s with heapTop := 0x80000000#32 }.heapTop.toNat + 4 > 0x80000000 := by decide

theorem test_hyp_ExitAndUnknownService :
    (start [(2, 10#32)]).reg 2#5 = 10#32 ∧ (start [(2, 11#32)]).reg 2#5 ∉ [1#32, 4#32, 5#32, 8#32, 9#32, 10#32] := by decide

theorem test_hyp_BreakException :
    (handlerStart.exl = false ∧ handlerStart.handlerInstalled = true) ∧
    ((start []).exl = false ∧ (start []).handlerInstalled = false) ∧
    { handlerStart with status := 0x0000FF13#32 }.exl = true := by decide

theorem test_hyp_RegisterTraps :
    let s := start [(8, 0x80000000#32), (9, 1#32)]
    s.reg 8 ≠ s.reg 9 ∧ s.reg 8 = s.reg 8 ∧ (s.reg 8).toInt < (s.reg 9).toInt ∧ ¬(s.reg 8).toInt < (s.reg 8).toInt ∧
      (s.reg 8).toNat ≥ (s.reg 9).toNat ∧ ¬(s.reg 9).toNat ≥ (s.reg 8).toNat := by decide

theorem test_hyp_ImmediateTraps :
    let s := start [(8, 0xFFFF8000#32), (9, 0x7FFF#32)]
    s.reg 8 = (0x8000#16).signExtend 32 ∧ s.reg 9 ≠ (0x8000#16).signExtend 32 ∧ (s.reg 8).toInt < (0x7FFF#16).toInt ∧
      ¬(s.reg 9).toInt < (0x8000#16).toInt ∧ (s.reg 8).toNat ≥ ((0x8000#16).signExtend 32 : Word).toNat ∧
      ¬(s.reg 9).toNat ≥ ((0x8000#16).signExtend 32 : Word).toNat := by decide

theorem test_hyp_ExceptionReturn :
    (start []).pend = none ∧ handlerStart.pend = none ∧ inSlot.pend.isSome = true := by decide

theorem test_hyp_Coprocessor0Moves :
    14#5 ∈ [8#5, 12#5, 13#5, 14#5] ∧ ¬(9#5 ∈ [8#5, 12#5, 13#5, 14#5] ∧ 0#11 = 0#11) ∧
      ¬(12#5 ∈ [8#5, 12#5, 13#5, 14#5] ∧ 1#11 = 0#11) := by decide

/-- The three cases of `Recorded`: in a delay slot, outside one, and with `EXL` set. -/
theorem test_hyp_ExceptionProcess :
    (inSlot.exl = false ∧ inSlot.pend = some { target := 0x00400010#32, branch := 0x00400000#32 }) ∧
    ((start []).exl = false ∧ (start []).pend = none) ∧ { inSlot with status := 0x00000002#32 }.exl = true ∧
    ((inRun .faulted).runState = .faulted ∧ (inRun .faulted).commands = []) := by decide

theorem test_hyp_ExceptionsArePrecise :
    (handlerStart.exl = false ∧ ran (exec (.brk 0) handlerStart) State.exl = some true ∧ Instr.isMtc0 (.brk 0) = false) ∧
    ((inRun .running).runState ≠ .faulted ∧
      ran (exec (.lw 8 0 0) (inRun .running)) (fun t => t.runState) = some .faulted) := by decide

theorem test_hyp_HandlerReturnRestores :
    handlerStart.exl = false ∧ handlerStart.handlerInstalled = true ∧ handlerStart.pend = none ∧
      { handlerStart with pend := some { target := 0x00400010#32, branch := 0x003FFFFC#32 } }.pend ≠ none := by decide

theorem test_hyp_HandlerInstalledIsFixed :
    ran (step handlerStart) (fun t => t.handlerInstalled) = some true ∧ handlerStart.commands = [] := by decide

/-- Within a run, from the image installed: text is intact by definition. -/
theorem test_hyp_StepKeepsInv : handlerStart.Inv ∧ ran (step handlerStart) (fun t => t.pc) = some 0x80000180#32 := by
  refine ⟨⟨by decide, by decide, fun a _ => rfl, ⟨by decide, by decide, by decide, ?_, ?_, by decide⟩, ?_, by decide⟩, by decide⟩
  · intro img h; cases h; decide
  · intro fi h; cases h
  · intro p h; cases h

theorem test_hyp_TextIsNeverWritten :
    (Memory.wf handlerStart.mem = true ∧ handlerStart.commands = [] ∧
      ran (step handlerStart) (fun t => t.pc) = some 0x80000180#32 ∧ InTextSegment 0x8FFFFFFF#32) ∧
    ran (exec (.sw 9 8 0) (start [(8, 0x10000000#32)])) (fun t => t.pc) = some 0x00400004#32 ∧
    (handlerStart.TextIntact ∧ handlerStart.image = some handlerImage ∧ handlerImage.valid = true ∧
      (0x00400000#32, 0x0000000D#32) ∈ handlerImage.text ∧ handlerStart.check 0x00400000#32 .word .fetch = true) ∧
    (handlerStart.check 0x0FFFFFFC#32 .word .fetch = true ∧
      ∀ img w, handlerStart.image = some img → (0x0FFFFFFC#32, w) ∉ img.text) := by
  refine ⟨⟨by decide, by decide, by decide, .inr (by decide)⟩, by decide,
    ⟨fun a _ => rfl, rfl, by decide, by decide, by decide⟩, by decide, ?_⟩
  intro img w h
  cases h
  simp [handlerImage]

theorem test_hyp_ModeChanges :
    (handlerStart.kernel = false ∧ ran (exec (.brk 0) handlerStart) State.kernel = some true) ∧
    ({ start [] with status := 0x0000FF13#32 }.kernel = true ∧
      ran (exec .eret { start [] with status := 0x0000FF13#32 }) State.kernel = some false ∧ Instr.isMtc0 .eret = false) ∧
    ran (exec (.mtc0 0 12) (start [])) State.kernel = some true := by decide

theorem test_hyp_UserModeIsolation :
    let s := start [(8, 0x7FFFFFFF#32)]
    let m : Memory := [(0x80000000, 0x01#8)]
    Memory.wf s.mem = true ∧ Memory.wf m = true ∧ s.kernel = false ∧ s.cfg.enforceKernelPriv = true ∧
      (∀ a : Word, a.toNat < 0x80000000 → Memory.byteAt m a = Memory.byteAt s.mem a) ∧
      ran (exec (.sb 8 8 0) s) (fun t => Memory.byteAt t.mem 0x7FFFFFFF#32) = some 0xFF#8 := by
  refine ⟨by decide, by decide, by decide, by decide, fun a h => ?_, by decide⟩
  have hne : a.toNat ≠ 0x80000000 := by omega
  simp [Memory.byteAt, Memory.read, hne, start, State.reset]

theorem test_hyp_RunPauseAndBreakpointCommands :
    (inRun .running).runState = .running ∧ (inRun .paused).runState = .paused ∧ (inRun .loaded).runState = .loaded ∧
      ((inRun .idle).runState ≠ .loaded ∧ (inRun .idle).runState ≠ .paused) := by decide

theorem test_hyp_LoadAndResetInstallTheImage :
    (inRun .idle).runState = .idle ∧ (inRun .loaded).runState = .loaded ∧ ImageOk handlerImage ∧
      ¬ImageOk { handlerImage with entry := 0x10000000#32 } ∧
      handlerStart.runState ≠ .idle ∧ handlerStart.image = some handlerImage := by
  refine ⟨rfl, rfl, ?_, ?_, by decide, rfl⟩
  · simp [ImageOk, handlerImage, InTextSegment, InDataSegment]
  · simp [ImageOk, InTextSegment]

theorem test_hyp_StepTakesTheOldestCommand :
    let s := { inRun .loaded with commands := [.pause, .run] }
    s.commands = .pause :: [.run] ∧ { s with commands := [.run] }.command .pause = none ∧
      (Command.run ≠ .step ∧ ({ s with commands := [] }.command .run).isSome = true) := by decide

theorem test_hyp_SingleStepCommand :
    let s := { handlerStart with runState := .paused, commands := [.step] }
    s.commands = .step :: [] ∧ s.runState = .paused ∧
      ran { s with commands := [], skipBreak := false }.instrStep (fun t => t.runState) = some .paused ∧
      ran { inRun .loaded with pc := 0#32 }.instrStep (fun t => t.runState) = some .faulted := by decide

theorem test_hyp_RunLoopIteration :
    let s := { handlerStart with breakpoints := [0x00400000#32] }
    s.commands = [] ∧ s.runState = .running ∧ s.pc ∈ s.breakpoints ∧ s.skipBreak = false ∧
      handlerStart.pc ∉ handlerStart.breakpoints := by decide

theorem test_hyp_TerminalStates :
    (inRun .halted).runState = .halted ∧ (inRun .faulted).runState = .faulted ∧ (inRun .halted).commands = [] ∧
      { handlerStart with runState := .halted }.image = some handlerImage := by decide

theorem test_hyp_Queries :
    (inRun .idle).runState = .idle ∧ (inRun .faulted).runState = .faulted ∧ (inRun .faulted).runState ∈
      [RunState.loaded, .paused, .halted, .faulted] ∧
    (∀ k < widthBytes .word, 0x00400000 ≤ (0xFFFEFFFC#32 + BitVec.ofNat 32 k).toNat ∧
      (0xFFFEFFFC#32 + BitVec.ofNat 32 k).toNat ≤ 0xFFFEFFFF) ∧
    (1 < widthBytes .half ∧ ¬(0xFFFEFFFF#32 + BitVec.ofNat 32 1).toNat ≤ 0xFFFEFFFF) := by decide

theorem test_hyp_PowerOn :
    (∀ img, Command.run ≠ .load img) ∧ (∀ a, Command.run ≠ .setBreakpoint a ∧ Command.run ≠ .clearBreakpoint a) ∧
      ImageOk handlerImage :=
  ⟨by simp, by simp, test_hyp_LoadAndResetInstallTheImage.2.2.1⟩

end Sys2Proof.Tests
end

section
/-! The invariant of a run is kept by every step. `State.Inv` is taken apart once into what memory, the breakpoints and the
heap give (`State.DataInv`), the run control and the slot; `instrStep_keeps_inv` follows the three shapes of an instruction
step, and `StepForm` the commands of the host. -/

namespace Sys2Proof.Machine

/-! ### The breakpoint set stays a rising list -/

theorem strictlyRising_iff_pairwise (l : List Word) :
    strictlyRising l = true ↔ l.Pairwise (fun a b => a.toNat < b.toNat) := by
  induction l with
  | nil => simp [strictlyRising]
  | cons a l ih =>
    cases l with
    | nil => simp [strictlyRising]
    | cons b rest =>
      rw [strictlyRising, Bool.and_eq_true, decide_eq_true_eq, ih, List.pairwise_cons (a := a), List.forall_mem_cons]
      refine ⟨fun ⟨hab, hp⟩ => ⟨⟨hab, fun c hc => ?_⟩, hp⟩, fun ⟨⟨hab, _⟩, hp⟩ => ⟨hab, hp⟩⟩
      exact hab.trans (List.rel_of_pairwise_cons hp hc)

theorem eq_or_mem_of_mem_insertAddr {a b : Word} {l : List Word} (h : b ∈ insertAddr a l) : b = a ∨ b ∈ l := by
  induction l with
  | nil => simpa [insertAddr] using h
  | cons c rest ih =>
    unfold insertAddr at h
    split_ifs at h
    · exact List.mem_cons.1 h
    · exact .inr h
    · rcases List.mem_cons.1 h with rfl | h
      · simp
      · exact (ih h).imp_right (List.mem_cons_of_mem c)

theorem strictlyRising_insertAddr {l : List Word} (a : Word) (h : strictlyRising l = true) :
    strictlyRising (insertAddr a l) = true := by
  rw [strictlyRising_iff_pairwise] at h ⊢
  induction l with
  | nil => simp [insertAddr]
  | cons b rest ih =>
    obtain ⟨hb, hrest⟩ := List.pairwise_cons.1 h
    unfold insertAddr
    split_ifs with hlt heq
    · exact List.pairwise_cons.2 ⟨List.forall_mem_cons.2 ⟨hlt, fun c hc => hlt.trans (hb c hc)⟩, h⟩
    · exact h
    · refine List.pairwise_cons.2 ⟨fun c hc => ?_, ih hrest⟩
      rcases eq_or_mem_of_mem_insertAddr hc with rfl | hc
      · have hne : c.toNat ≠ b.toNat := fun e => heq (BitVec.eq_of_toNat_eq e)
        omega
      · exact hb c hc

theorem strictlyRising_removeAddr {l : List Word} (a : Word) (h : strictlyRising l = true) :
    strictlyRising (removeAddr a l) = true := by
  rw [strictlyRising_iff_pairwise] at h ⊢
  exact h.filter _

/-! ### The invariant, part by part -/

/-- The part of the invariant about memory, the breakpoint set and the heap's top (20_memory.md R67, 44_system.md R216). -/
structure State.DataInv (s : State) : Prop where
  mem : Memory.wf s.mem = true
  breakpoints : strictlyRising s.breakpoints = true
  text : s.TextIntact
  heap : 0x10040000 ≤ s.heapTop.toNat ∧ s.heapTop.toNat ≤ 0x80000000 ∧ s.heapTop.toNat % 4 = 0

theorem inv_iff (s : State) :
    s.Inv ↔ s.DataInv ∧ s.RunInv ∧ ∀ p, s.pend = some p → s.pc = p.branch + 4 :=
  ⟨fun ⟨hm, hb, ht, hr, hp, hh⟩ => ⟨⟨hm, hb, ht, hh⟩, hr, hp⟩,
   fun ⟨⟨hm, hb, ht, hh⟩, hr, hp⟩ => ⟨hm, hb, ht, hr, hp, hh⟩⟩

/-- `DataInv` reads four items of the state only. -/
theorem State.DataInv.congr {s t : State} (h : s.DataInv) (hm : t.mem = s.mem) (hb : t.breakpoints = s.breakpoints)
    (hi : t.image = s.image) (hh : t.heapTop = s.heapTop) : t.DataInv := by
  obtain ⟨hmem, hbp, htext, hheap⟩ := h
  refine ⟨hm ▸ hmem, hb ▸ hbp, fun a ha => ?_, hh ▸ hheap⟩
  rw [hm, htext a ha, State.loadedByte, State.loadedByte, hi]

/-- An image is loaded and the run has not ended: the run states in which an instruction can execute
(70_reset_and_hazards.md R283, R284). -/
def RunState.Active (r : RunState) : Prop := r = .loaded ∨ r = .running ∨ r = .paused

/-- A valid image is retained, and neither end of a run is recorded. -/
structure State.Unended (s : State) : Prop where
  fault : s.faultInfo = none
  exit : s.exitCode = none
  image : s.image ≠ none
  valid : ∀ img, s.image = some img → img.valid = true

theorem State.Unended.congr {s t : State} (h : s.Unended) (hf : t.faultInfo = s.faultInfo) (he : t.exitCode = s.exitCode)
    (hi : t.image = s.image) : t.Unended :=
  ⟨hf ▸ h.fault, he ▸ h.exit, hi ▸ h.image, hi ▸ h.valid⟩

/-- While a run is active the run-control invariant says just that it has not ended. -/
theorem runInv_iff_of_active {s : State} (h : s.runState.Active) : s.RunInv ↔ s.Unended := by
  have hnot : s.runState ≠ .idle ∧ s.runState ≠ .halted ∧ s.runState ≠ .faulted := by
    rcases h with h | h | h <;> simp [h]
  obtain ⟨hidle, hhalted, hfaulted⟩ := hnot
  constructor
  · rintro ⟨hf, he, hi, hv, -, -⟩
    exact ⟨by simpa [hfaulted] using hf, by simpa [hhalted] using he, by simpa [hidle] using hi, hv⟩
  · rintro ⟨hf, he, hi, hv⟩
    refine ⟨by simp [hf, hfaulted], by simp [he, hhalted], by simp [hi, hidle], hv, by simp [hf], fun hend => ?_⟩
    exact (hend.elim hhalted hfaulted).elim

/-! ### What an instruction's work stores -/

/-- A permitted store writes no fetchable byte (20_memory.md R52, R67). -/
theorem byteAt_of_stored {s b : State} (hm : Memory.wf s.mem = true) (hb : Stored s b) {a : Word}
    (ht : isTextSegment a = true) : Memory.byteAt b.mem a = Memory.byteAt s.mem a := by
  rcases hb with hb | ⟨d, bs, hb, -, hc⟩
  · rw [hb]
  · rw [hb]
    refine Memory.byteAt_storeBytes_of_ne hm d a bs fun k hk hak => ?_
    rw [hak, check_store_not_text s (hc k hk)] at ht
    cases ht

theorem wf_of_stored {s b : State} (hm : Memory.wf s.mem = true) (hb : Stored s b) : Memory.wf b.mem = true := by
  rcases hb with hb | ⟨d, bs, hb, -, -⟩
  · rwa [hb]
  · rw [hb]
    exact Memory.wf_storeBytes hm d bs

/-! ### What executes keeps the invariant -/

/-- Using up an answer of the host touches nothing the invariant speaks of. -/
theorem answered_keeps_inv {s b : State} (hs : s.Inv) (hb : Answered s b) : b.Inv := by
  rw [hb]
  exact hs

section
variable {s : State} (hs : s.Inv) (ha : s.runState.Active)
include hs

theorem State.Inv.dataInv : s.DataInv := ((inv_iff s).1 hs).1

theorem State.Inv.unended (ha : s.runState.Active) : s.Unended :=
  (runInv_iff_of_active ha).1 ((inv_iff s).1 hs).2.1

include ha

/-- Whatever the outcome of an instruction, moving on keeps the invariant (43_control.md R181). -/
theorem schedule_keeps_inv (n : NextPc) : (s.schedule n).Inv := by
  have hdata : (s.schedule n).DataInv := hs.dataInv.congr (by simp) (by simp) (by simp) (by simp)
  have hun := hs.unended ha
  have hgoesOn (hr : (s.schedule n).runState = s.runState) (he : (s.schedule n).exitCode = s.exitCode) :
      (s.schedule n).RunInv :=
    (runInv_iff_of_active (hr ▸ ha)).2 (hun.congr (by simp) he (by simp))
  cases n with
  | seq => exact (inv_iff _).2 ⟨hdata, hgoesOn (by simp) (by simp), by simp⟩
  | branch t => exact (inv_iff _).2 ⟨hdata, hgoesOn rfl rfl, fun p hp => by cases hp; rfl⟩
  | ret t => exact (inv_iff _).2 ⟨hdata, hgoesOn rfl rfl, by simp⟩
  | halt c =>
    obtain ⟨hf, -, hi, hv⟩ := hun
    exact (inv_iff _).2 ⟨hdata, ⟨by simp [hf], by simp, by simp [hi], by simpa, by simp [hf], by simp⟩, by simp⟩

/-- An exception keeps the invariant: the record it ends a run with names pc and the registers (60_exceptions.md R244 to
R246). -/
theorem takeException_keeps_inv (e : Exc) : (s.takeException e).Inv := by
  have hun := hs.unended ha
  refine (inv_iff _).2 ⟨hs.dataInv.congr (by simp) (by simp) (by simp) (by simp), ?_, by simp⟩
  rcases takeException_end s e with ⟨hpc, hr, r, hfi, -⟩ | ⟨-, hr, hfi⟩
  · obtain ⟨-, he, hi, hv⟩ := hun
    refine ⟨by simp [hr, hfi], by simp [hr, he], by simp [hr, hi], by simpa, fun fi h => ?_, by simp⟩
    rw [hfi] at h
    cases h
    exact ⟨hpc.symm, rfl⟩
  · exact (runInv_iff_of_active (hr ▸ ha)).2 (hun.congr hfi (by simp) (by simp))

/-- The work of an instruction keeps the invariant. -/
theorem worked_keeps_inv {i : Instr} {b : State} (hb : Worked i s b) : b.Inv := by
  obtain ⟨hpc, hpend, hr, hfi, hex, himg, -, -, hbp, -⟩ := worked_fields hb
  obtain ⟨⟨hm, hrising, htext, hheap⟩, -, hslot⟩ := (inv_iff s).1 hs
  refine (inv_iff b).2 ⟨⟨wf_of_stored hm hb.stored, hbp ▸ hrising, fun a ht => ?_, ?_⟩,
    (runInv_iff_of_active (hr ▸ ha)).2 ((hs.unended ha).congr hfi hex himg), by rwa [hpend, hpc]⟩
  · rw [byteAt_of_stored hm hb.stored ht, htext a ht, State.loadedByte, State.loadedByte, himg]
  · rcases hb.heap with h | ⟨r, hr4, hle, h⟩
    · rwa [h]
    · omega

/-- An instruction keeps the invariant. -/
theorem exec_keeps_inv {i : Instr} {t : State} (h : exec i s = .next t) : t.Inv := by
  rcases exec_cases i s with ⟨b, e, hx, hb, -, -⟩ | ⟨b, n, hx, hb, -⟩ <;> cases hx.symm.trans h
  · obtain ⟨-, -, -, -, -, -, -, -, -, -, -, hr, -⟩ := answered_fields hb
    exact takeException_keeps_inv (answered_keeps_inv hs hb) (hr ▸ ha) e
  · obtain ⟨-, -, hr, -⟩ := worked_fields hb
    exact schedule_keeps_inv (worked_keeps_inv hs ha hb) (hr ▸ ha) n

/-- An instruction step keeps the invariant (43_control.md R180). -/
theorem instrStep_keeps_inv {t : State} (h : s.instrStep = .next t) : t.Inv := by
  rcases instrStep_cases s with ⟨e, hx⟩ | hx | ⟨i, hx⟩
  · cases hx.symm.trans h
    exact takeException_keeps_inv hs ha e
  · cases hx.symm.trans h
    exact schedule_keeps_inv hs ha _
  · exact exec_keeps_inv hs ha (hx ▸ h)

end

/-! ### What an instruction step does to the image -/

theorem exec_image {i : Instr} {s t : State} (h : exec i s = .next t) : t.image = s.image := by
  rcases exec_cases i s with ⟨b, e, hx, hb, -, -⟩ | ⟨b, n, hx, hb, -⟩ <;> cases hx.symm.trans h
  · rw [takeException_image, hb]
  · rw [schedule_image, hb.frame]

theorem instrStep_image {s t : State} (h : s.instrStep = .next t) : t.image = s.image := by
  rcases instrStep_cases s with ⟨e, hx⟩ | hx | ⟨i, hx⟩
  · cases hx.symm.trans h
    exact takeException_image s e
  · cases hx.symm.trans h
    exact schedule_image s _
  · exact exec_image (hx ▸ h)

/-! ### What the host's commands do -/

section
variable {s : State}

/-- Changing from one active run state to another keeps the invariant, whatever becomes of the waiting commands and
`skipBreak`. -/
theorem inv_of_setRunState (hs : s.Inv) (ha : s.runState.Active) (r : RunState) (hr : r.Active) (rest : List Command)
    (k : Bool) : State.Inv { s with commands := rest, runState := r, skipBreak := k } := by
  obtain ⟨hdata, -, hslot⟩ := (inv_iff s).1 hs
  exact (inv_iff _).2 ⟨hdata.congr rfl rfl rfl rfl,
    (runInv_iff_of_active hr).2 ((hs.unended ha).congr rfl rfl rfl), hslot⟩

/-- A valid image installed in any state with a canonical breakpoint set meets the invariant (10_state.md R42). -/
theorem inv_install (hb : strictlyRising s.breakpoints = true) {img : Image} (hv : img.valid = true) :
    (s.install img).Inv := by
  have hrun : (s.install img).Unended := ⟨rfl, rfl, nofun, fun i hi => by cases hi; exact hv⟩
  have hheap : (s.install img).heapTop = 0x10040000#32 := rfl
  refine (inv_iff _).2 ⟨⟨Image.wf_memory img, hb, fun a _ => rfl, ?_⟩,
    (runInv_iff_of_active (.inl rfl)).2 hrun, nofun⟩
  rw [hheap]
  decide

/-- The end of `step()` keeps the invariant while an image is loaded (70_reset_and_hazards.md R283). -/
theorem endStep_keeps_inv (hs : s.Inv) (hi : s.image ≠ none) : s.endStep.Inv := by
  obtain ⟨-, ⟨-, -, hidle, -⟩, -⟩ := (inv_iff s).1 hs
  have hpaused : RunState.Active .paused := .inr (.inr rfl)
  unfold State.endStep
  split <;> rename_i hr
  · exact hs
  · exact hs
  · exact absurd (hidle.2 hr) hi
  all_goals exact inv_of_setRunState hs (by simp [RunState.Active, hr]) .paused hpaused _ _

end

/-- Settles O49: each form of a step keeps the invariant; the instruction it may execute does by `instrStep_keeps_inv`. -/
theorem stepKeepsInv : Obligations.StepKeepsInv := by
  intro s t hs h
  obtain ⟨⟨hm, hrising, htext, hheap⟩, hrun, hslot⟩ := (inv_iff s).1 hs
  cases step_cases h with
  | refused c rest hc e => exact e ▸ hs
  | load img rest hc hr hv e => exact e ▸ inv_install hrising hv
  | reset img rest hc hr himg e =>
    obtain ⟨-, -, -, hvalid, -, -⟩ := hrun
    exact e ▸ inv_install hrising (hvalid img himg)
  | control c rest run k hc hcmd hr hrun' e =>
    have ha : s.runState.Active := hr.imp_right Or.symm
    have ha' : run.Active := .inr hrun'
    exact e ▸ inv_of_setRunState hs ha run ha' rest k
  | breakpoint c rest l a hc hl e =>
    have hl' : strictlyRising l = true := by
      rcases hl with ⟨-, rfl⟩ | ⟨-, rfl⟩
      · exact strictlyRising_insertAddr a hrising
      · exact strictlyRising_removeAddr a hrising
    exact e ▸ ⟨hm, hl', htext, hrun, hslot, hheap⟩
  | single rest u hc hr hx e =>
    have ha : s.runState.Active := hr.imp_right .inr
    have hbegun : (Begun s rest).Inv := hs
    have himg : u.image ≠ none := instrStep_image hx ▸ (hs.unended ha).image
    exact e ▸ endStep_keeps_inv (instrStep_keeps_inv hbegun ha hx) himg
  | pausedAt hc hr e =>
    exact e ▸ inv_of_setRunState hs (.inr (.inl hr)) .paused (.inr (.inr rfl)) _ _
  | looped hc hr hx =>
    have hbegun : (Begun s []).Inv := hs
    exact instrStep_keeps_inv hbegun (.inr (.inl hr)) hx

end Sys2Proof.Machine
end

section
/-! Which accesses are permitted (20_memory.md R52 to R55), read on addresses as numbers: `check_iff` takes the check apart, and
the columns of the segment table are ranges. A byte stored is the byte loaded. -/

namespace Sys2Proof.Machine

/-! ### Addresses of an aligned access -/

/-- Alignment is divisibility by the width (20_memory.md R55). -/
theorem aligned_iff (a : Word) (n : Width) : aligned a n = true ↔ a.toNat % widthBytes n = 0 := by
  cases n <;> simp [aligned, widthBytes, ← BitVec.toNat_inj, Nat.mod_one]

/-- The addresses of an aligned access do not wrap around. -/
theorem toNat_add_of_aligned {a : Word} {n : Width} (ha : a.toNat % widthBytes n = 0) {k : Nat} (hk : k < widthBytes n) :
    (a + BitVec.ofNat 32 k).toNat = a.toNat + k := by
  have hlt := a.isLt
  rw [BitVec.toNat_add, BitVec.toNat_ofNat]
  cases n <;> simp only [widthBytes] at ha hk <;> omega

/-- Every bound of the segment table is a multiple of 4 (20_memory.md R52), so an aligned access lies in one segment (R55). -/
theorem segmentOf_add_of_aligned {a : Word} {n : Width} (ha : a.toNat % widthBytes n = 0) {k : Nat} (hk : k < widthBytes n) :
    segmentOf (a + BitVec.ofNat 32 k) = segmentOf a := by
  have hsame {bound : Nat} (hb : bound % 4 = 3) : a.toNat + k ≤ bound ↔ a.toNat ≤ bound := by
    cases n <;> simp only [widthBytes] at ha hk <;> omega
  simp only [segmentOf, toNat_add_of_aligned ha hk, hsame (by decide : 0x003FFFFF % 4 = 3),
    hsame (by decide : 0x0FFFFFFF % 4 = 3), hsame (by decide : 0x7FFFFFFF % 4 = 3), hsame (by decide : 0x8FFFFFFF % 4 = 3),
    hsame (by decide : 0xFFFEFFFF % 4 = 3)]

/-- Two aligned words at different addresses share no byte. -/
theorem add_ne_add_of_aligned {a b : Word} (ha : a.toNat % widthBytes .word = 0) (hb : b.toNat % widthBytes .word = 0)
    (hab : a ≠ b) {j k : Nat} (hj : j < widthBytes .word) (hk : k < widthBytes .word) :
    a + BitVec.ofNat 32 j ≠ b + BitVec.ofNat 32 k := by
  intro h
  have hnat := congrArg BitVec.toNat h
  rw [toNat_add_of_aligned ha hj, toNat_add_of_aligned hb hk] at hnat
  simp only [widthBytes] at ha hb hj hk
  exact hab (BitVec.eq_of_toNat_eq (by omega))

/-! ### The segment table on numbers (20_memory.md R52) -/

theorem isTextSegment_iff (a : Word) : isTextSegment a = true ↔ InTextSegment a := by
  unfold isTextSegment InTextSegment segmentOf
  split_ifs <;> simp <;> omega

theorem isDataSegment_iff (a : Word) : isDataSegment a = true ↔ InDataSegment a := by
  unfold isDataSegment InDataSegment segmentOf
  split_ifs <;> simp <;> omega

theorem inTextSegment_add_of_aligned {a : Word} {n : Width} (ha : a.toNat % widthBytes n = 0) {k : Nat}
    (hk : k < widthBytes n) (h : InTextSegment a) : InTextSegment (a + BitVec.ofNat 32 k) := by
  rw [← isTextSegment_iff, isTextSegment] at h ⊢
  rwa [segmentOf_add_of_aligned ha hk]

theorem segPermits_fetch_iff (a : Word) : segPermits (segmentOf a) .fetch = true ↔
    0x00400000 ≤ a.toNat ∧ a.toNat ≤ 0x0FFFFFFF ∨ 0x80000000 ≤ a.toNat ∧ a.toNat ≤ 0x8FFFFFFF := by
  unfold segmentOf
  split_ifs <;> simp [segPermits] <;> omega

theorem segPermits_load_iff (a : Word) : segPermits (segmentOf a) .load = true ↔
    0x00400000 ≤ a.toNat ∧ a.toNat ≤ 0xFFFEFFFF := by
  unfold segmentOf
  split_ifs <;> simp [segPermits] <;> omega

theorem segPermits_store_iff (a : Word) : segPermits (segmentOf a) .store = true ↔
    0x10000000 ≤ a.toNat ∧ a.toNat ≤ 0x7FFFFFFF ∨ 0x90000000 ≤ a.toNat ∧ a.toNat ≤ 0xFFFEFFFF := by
  unfold segmentOf
  split_ifs <;> simp [segPermits] <;> omega

theorem segKernelOnly_iff (a : Word) : segKernelOnly (segmentOf a) = true ↔
    0x80000000 ≤ a.toNat ∧ a.toNat ≤ 0xFFFEFFFF := by
  unfold segmentOf
  split_ifs <;> simp [segKernelOnly] <;> omega

/-! ### The access check (20_memory.md R53) -/

/-- A kernel segment may be accessed: privilege is not enforced, or `EXL` is set, or `UM` is clear (20_memory.md R53,
10_state.md R33). -/
def State.KernelAccess (s : State) : Prop :=
  s.cfg.enforceKernelPriv = true → s.status.getLsbD 1 = true ∨ s.status.getLsbD 4 = false

/-- Permission implies that the segment is mapped, so three conditions remain. -/
theorem check_iff (s : State) (a : Word) (n : Width) (k : AccessKind) :
    s.check a n k = true ↔ a.toNat % widthBytes n = 0 ∧ segPermits (segmentOf a) k = true ∧
      (segKernelOnly (segmentOf a) = true → s.KernelAccess) := by
  have hkernel : s.kernel = true ↔ s.status.getLsbD 1 = true ∨ s.status.getLsbD 4 = false := by
    simp [State.kernel, State.exl, State.um]
  have hmapped : segPermits (segmentOf a) k = true → segMapped (segmentOf a) = true := by
    cases segmentOf a <;> cases k <;> decide
  rw [State.KernelAccess, ← hkernel, ← aligned_iff]
  simp only [State.check, Bool.and_eq_true, Bool.not_eq_true', Bool.and_eq_false_iff]
  grind

/-- The check reads only the parameters and `Status`. -/
theorem check_congr {s u : State} (hcfg : u.cfg = s.cfg) (hstatus : u.status = s.status) (a : Word) (n : Width)
    (k : AccessKind) : u.check a n k = s.check a n k := by
  simp only [State.check, State.kernel, State.exl, State.um, hcfg, hstatus]

/-- What may be stored may be loaded (20_memory.md R52). -/
theorem check_load_of_store {s : State} {a : Word} {n : Width} (h : s.check a n .store = true) :
    s.check a n .load = true := by
  obtain ⟨hal, hperm, hpriv⟩ := (check_iff s a n .store).1 h
  refine (check_iff s a n .load).2 ⟨hal, ?_, hpriv⟩
  cases hseg : segmentOf a <;> simp_all [segPermits]

/-- Settles O27: the check by `check_iff`, and the columns of the segment table as ranges. -/
theorem accessCheck : Obligations.AccessCheck := by
  intro s a n
  rw [check_iff, check_iff, check_iff, segPermits_fetch_iff, segPermits_load_iff, segPermits_store_iff, segKernelOnly_iff]
  refine ⟨?_, ?_, ?_, fun hal k hk => segmentOf_add_of_aligned hal hk⟩
  all_goals
    rw [← State.KernelAccess]
    by_cases hpriv : s.KernelAccess <;>
      simp only [hpriv, implies_true, imp_false, and_true, and_false, or_false] <;> omega

/-! ### Bytes stored and loaded (20_memory.md R54) -/

theorem getElem?_lowBytes (v : Word) {n : Width} {k : Nat} (hk : k < widthBytes n) :
    (lowBytes v n)[k]? = some (byteOf v k) := by
  cases n <;> simp only [widthBytes] at hk <;> interval_cases k <;> rfl

theorem byteAt_store {m : Memory} (hm : Memory.wf m = true) (a v : Word) {n : Width} {k : Nat} (hk : k < widthBytes n) :
    Memory.byteAt (Memory.store m a n v) (a + BitVec.ofNat 32 k) = byteOf v k := by
  refine Memory.byteAt_storeBytes hm a _ ?_ k _ (getElem?_lowBytes v hk)
  rw [length_lowBytes]
  cases n <;> decide

theorem byteAt_store_of_ne {m : Memory} (hm : Memory.wf m = true) {a b : Word} {n : Width} (v : Word)
    (h : ∀ k < widthBytes n, b ≠ a + BitVec.ofNat 32 k) :
    Memory.byteAt (Memory.store m a n v) b = Memory.byteAt m b :=
  Memory.byteAt_storeBytes_of_ne hm a b _ (by rwa [length_lowBytes])

/-- The bytes of a loaded word are those of memory, lowest address first. -/
theorem byteOf_load_word (m : Memory) (a : Word) {k : Nat} (hk : k < 4) :
    byteOf (Memory.load m a .word) k = Memory.byteAt m (a + BitVec.ofNat 32 k) := by
  obtain ⟨h0, h1, h2, h3⟩ := byteOf_wordOfBytes (Memory.byteAt m a) (Memory.byteAt m (a + 1)) (Memory.byteAt m (a + 2))
    (Memory.byteAt m (a + 3))
  interval_cases k
  · simpa [Memory.load] using h0
  · exact h1
  · exact h2
  · exact h3

/-- A word is what its four bytes say. -/
theorem load_word_eq_of_byteAt {m : Memory} {a w : Word}
    (h : ∀ k < 4, Memory.byteAt m (a + BitVec.ofNat 32 k) = byteOf w k) : Memory.load m a .word = w := by
  rw [← wordOfBytes_byteOf w, ← h 0 (by decide), ← h 1 (by decide), ← h 2 (by decide), ← h 3 (by decide),
    BitVec.add_zero]
  rfl

theorem memWrite_of_check {s : State} {a : Word} {n : Width} (v : Word) (h : s.check a n .store = true) :
    s.memWrite a n v = .ok { s with mem := Memory.store s.mem a n v } :=
  if_pos h

theorem memRead_of_check {s : State} {a : Word} {n : Width} (h : s.check a n .load = true) :
    s.memRead a n = .ok (Memory.load s.mem a n) :=
  if_pos h

/-- A permitted `sw` stores the word and moves on (42_loadstore.md R170). -/
theorem exec_sw_of_check {s : State} {rt rs : Reg} {imm : BitVec 16} (h : s.check (s.ea rs imm) .word .store = true) :
    exec (.sw rt rs imm) s =
      .next ({ s with mem := Memory.store s.mem (s.ea rs imm) .word (s.reg rt) }.schedule .seq) := by
  simp only [exec, execSw, memWrite_of_check _ h, State.finish]

/-- A permitted `lbu` writes the byte, zero-extended (42_loadstore.md R162). -/
theorem exec_lbu_of_check {s : State} {rt rs : Reg} {imm : BitVec 16} (h : s.check (s.ea rs imm) .byte .load = true) :
    exec (.lbu rt rs imm) s = .next (s.retire rt ((Memory.byteAt s.mem (s.ea rs imm)).setWidth 32)) := by
  simp only [exec, execLbu, memRead_of_check h, State.finishReg, Memory.load]

theorem reg_retire_self (s : State) {rd : Reg} (hrd : rd ≠ 0#5) (v : Word) : (s.retire rd v).reg rd = v := by
  obtain ⟨hreg, -⟩ := regEffect_retire s rd v
  rw [hreg rd, if_pos ⟨rfl, hrd⟩]

/-- Settles O28: each byte of a word that may be stored may be loaded, and it is the one `byteAt_store` gives. -/
theorem storeThenLoad : Obligations.StoreThenLoad := by
  intro s rt rs rd base imm off k hm hk hrd hc
  refine ⟨_, exec_sw_of_check hc, fun u hmem hcfg hstatus hea => ?_⟩
  simp only [schedule_mem, schedule_cfg, schedule_status] at hmem hcfg hstatus
  have hload : u.check (u.ea base off) .byte .load = true := by
    rw [check_congr hcfg hstatus, hea]
    exact check_load_of_store (check_bytes hc k hk)
  have hbyte : Memory.byteAt u.mem (u.ea base off) = byteOf (s.reg rt) k := by
    rw [hmem, hea]
    exact byteAt_store hm _ _ hk
  refine ⟨_, exec_lbu_of_check hload, ?_, ?_⟩ <;> rw [reg_retire_self _ hrd, hbyte]
  · exact BitVec.extractLsb'_setWidth_of_le (by decide) |>.trans BitVec.extractLsb'_eq_self
  · ext i hi
    simp [BitVec.getElem_extractLsb']

end Sys2Proof.Machine
end

section
/-! What is fetched (20_memory.md R59, R67): the four answers of a fetch; the words of a valid image are in memory after it is
installed (`byteAt_memory_of_mem_text`); and no instruction, and no step but a load or reset, writes a fetchable byte
(`step_keeps_text`). -/

namespace Sys2Proof.Machine

/-! ### What a fetch gives (20_memory.md R59) -/

section
variable {s : State} {a : Word}

theorem fetch_of_not_check (h : s.check a .word .fetch = false) : s.fetch a = .exception (.addressErrorFetch a) := by
  simp [State.fetch, h]

theorem fetch_of_defined (h : s.check a .word .fetch = true) (hd : s.imageDefines a = true) :
    s.fetch a = .word (Memory.load s.mem a .word) := by
  simp [State.fetch, h, hd]

theorem fetch_of_zeroWord (h : s.check a .word .fetch = true) (hd : s.imageDefines a = false)
    (he : s.cfg.fetchEmpty = .zeroWord) : s.fetch a = .word 0#32 := by
  simp [State.fetch, h, hd, he]

theorem fetch_of_halt (h : s.check a .word .fetch = true) (hd : s.imageDefines a = false)
    (he : s.cfg.fetchEmpty = .halt) : s.fetch a = .endOfRun := by
  simp [State.fetch, h, hd, he]

theorem instrStep_of_exception {e : Exc} (h : s.fetch s.pc = .exception e) : s.instrStep = .next (s.takeException e) := by
  simp [State.instrStep, h]

theorem instrStep_of_endOfRun (h : s.fetch s.pc = .endOfRun) : s.instrStep = .next (s.schedule (.halt 0#32)) := by
  simp [State.instrStep, h]

theorem instrStep_of_word {w : Word} {i : Instr} (h : s.fetch s.pc = .word w) (hi : decode w = .ok i) :
    s.instrStep = exec i s := by
  simp [State.instrStep, h, hi]

/-- The image defines the words it lists (00_scope.md R11). -/
theorem imageDefines_iff : s.imageDefines a = true ↔ ∃ img w, s.image = some img ∧ (a, w) ∈ img.text := by
  unfold State.imageDefines Image.definesText
  cases s.image <;> simp

end

/-! ### What an exception records and leaves unchanged (60_exceptions.md R241, R243) -/

/-- `Cause` after an exception, bit by bit: `BD` is written with `EXL` 0 only. -/
theorem getLsbD_cause_recordException (s : State) (e : Exc) (i : Nat) :
    (s.recordException e).cause.getLsbD i =
      if i = 31 then (if s.exl then s.cause.getLsbD 31 else s.pend.isSome)
      else if 2 ≤ i ∧ i ≤ 6 then (excCode e).getLsbD (i - 2) else s.cause.getLsbD i := by
  unfold State.recordException
  cases s.exl
  · simp only [Bool.false_eq_true, if_false, getLsbD_withBd, getLsbD_withExcCode]
  · simp only [if_true, getLsbD_withExcCode]
    by_cases h : i = 31 <;> simp [h]

theorem recorded_recordException (s : State) (e : Exc) : Recorded s (s.recordException e) (excCode e) (excBadAddr e) := by
  have hcause := getLsbD_cause_recordException s e
  refine ⟨rfl, ?_, fun hx => ?_, fun hx hp => ?_, fun p hx hp => ?_, fun hx => ⟨?_, ?_⟩, fun i hi => ?_,
    fun i => ?_, rfl⟩
  · ext i hi
    rw [BitVec.getElem_extractLsb', hcause, if_neg (by omega), if_pos (by omega), Nat.add_sub_cancel_left,
      BitVec.getLsbD_eq_getElem hi]
  · rw [hcause, if_pos rfl, hx, if_neg Bool.false_ne_true]
  · simp [State.recordException, hx, hp]
  · simp [State.recordException, hx, hp]
  · simp [State.recordException, hx]
  · rw [hcause, if_pos rfl, if_pos hx]
  · rw [hcause, if_neg (by omega), if_neg (by omega)]
  · exact getLsbD_withExl s.status i

/-- Where an exception goes changes nothing that it recorded. -/
theorem recorded_takeException (s : State) (e : Exc) : Recorded s (s.takeException e) (excCode e) (excBadAddr e) := by
  simpa [Recorded] using recorded_recordException s e

theorem notTouched_takeException (s : State) (e : Exc) : NotTouched s (s.takeException e) := by
  refine ⟨fun r => by simp, by simp [SameHiLo], fun a => by simp, by simp, by simp, ?_, ?_, by simp, by simp⟩
  · simp [SameConsole]
  · simp [SameHost]

/-- An exception that is not deliverable ends the run (60_exceptions.md R244, R246). -/
theorem endsFaulted_takeException (s : State) {e : Exc} (h : excDeliverable e = false) :
    EndsFaulted s (s.takeException e) (excReason e) (excKind e) (excCode e) (excBadAddr e) := by
  have hfatal : s.takeException e = (s.recordException e).fatal e (excReason e) := by
    simp [State.takeException, h]
  refine ⟨recorded_takeException s e, notTouched_takeException s e, ?_, ?_, ?_⟩ <;> rw [hfatal] <;> rfl

/-- Settles O8: the four answers of `State.fetch`, and what the instruction step makes of each. -/
theorem fetchRule : Obligations.FetchRule := by
  intro s
  refine ⟨fun hc => ?_, fun hc hd he => ?_, fun hc hd he => ?_, fun hc hd => ?_⟩
  · exact ⟨_, instrStep_of_exception (fetch_of_not_check hc), endsFaulted_takeException s rfl⟩
  · have hnop : decode 0#32 = .ok .nop := by decide
    exact ⟨_, instrStep_of_word (fetch_of_zeroWord hc hd he) hnop, noEffect_seq s⟩
  · exact ⟨_, instrStep_of_endOfRun (fetch_of_halt hc hd he), haltEffect_halt s 0#32⟩
  · exact ⟨_, fetch_of_defined hc hd, fun k hk => byteOf_load_word s.mem s.pc hk⟩

/-! ### The memory an image is installed in (20_memory.md R51) -/

theorem noRepeats_iff_nodup (l : List Word) : noRepeats l = true ↔ l.Nodup := by
  induction l with
  | nil => simp [noRepeats]
  | cons a rest ih => simp [noRepeats, ih]

/-- The validation of `load` (70_reset_and_hazards.md R281). -/
theorem image_valid_iff (img : Image) : img.valid = true ↔ ImageOk img := by
  simp only [Image.valid, ImageOk, Bool.and_eq_true, List.all_eq_true, noRepeats_iff_nodup, isTextSegment_iff,
    isDataSegment_iff, aligned_iff, widthBytes, and_assoc]

theorem byteAt_installData_of_ne {m : Memory} (hm : Memory.wf m = true) {l : List (Word × Byte)} {b : Word}
    (h : ∀ p ∈ l, b ≠ p.1) : Memory.byteAt (Memory.installData m l) b = Memory.byteAt m b := by
  induction l generalizing m with
  | nil => rfl
  | cons p rest ih =>
    obtain ⟨hp, hrest⟩ := List.forall_mem_cons.1 h
    rw [Memory.installData, ih (Memory.wf_setByteAt hm _ _) hrest, Memory.byteAt_setByteAt hm, if_neg hp]

theorem byteAt_installText_of_ne {m : Memory} (hm : Memory.wf m = true) {l : List (Word × Word)} {b : Word}
    (h : ∀ p ∈ l, ∀ k < 4, b ≠ p.1 + BitVec.ofNat 32 k) :
    Memory.byteAt (Memory.installText m l) b = Memory.byteAt m b := by
  induction l generalizing m with
  | nil => rfl
  | cons p rest ih =>
    obtain ⟨hp, hrest⟩ := List.forall_mem_cons.1 h
    rw [Memory.installText, ih (Memory.wf_store hm _ _ _) hrest, byteAt_store_of_ne (n := .word) hm _ hp]

/-- Text words at different aligned addresses do not overlap, so each keeps its bytes. -/
theorem byteAt_installText {m : Memory} (hm : Memory.wf m = true) {l : List (Word × Word)}
    (hal : ∀ p ∈ l, p.1.toNat % 4 = 0) (hnd : (l.map (fun p => p.1)).Nodup) {p : Word × Word} (hp : p ∈ l) {k : Nat}
    (hk : k < 4) : Memory.byteAt (Memory.installText m l) (p.1 + BitVec.ofNat 32 k) = byteOf p.2 k := by
  induction l generalizing m with
  | nil => cases hp
  | cons q rest ih =>
    obtain ⟨hq, hrest⟩ := List.forall_mem_cons.1 hal
    obtain ⟨hnotin, hnd⟩ := List.nodup_cons.1 hnd
    rw [Memory.installText]
    rcases List.mem_cons.1 hp with rfl | hp
    · rw [byteAt_installText_of_ne (Memory.wf_store hm _ _ _), byteAt_store hm _ _ hk]
      intro r hr j hj
      have hne : p.1 ≠ r.1 := fun e => hnotin (List.mem_map.2 ⟨r, hr, e.symm⟩)
      exact add_ne_add_of_aligned hq (hrest r hr) hne hk hj
    · exact ih (Memory.wf_store hm _ _ _) hrest hnd hp

/-- A valid image's memory holds its text words: its data bytes lie in other segments. -/
theorem byteAt_memory_of_mem_text {img : Image} (hv : img.valid = true) {p : Word × Word} (hp : p ∈ img.text) {k : Nat}
    (hk : k < 4) : Memory.byteAt img.memory (p.1 + BitVec.ofNat 32 k) = byteOf p.2 k := by
  obtain ⟨htext, hdata, hnd, -⟩ := (image_valid_iff img).1 hv
  obtain ⟨hal, hseg⟩ := htext p hp
  have hnotdata : ∀ q ∈ img.data, p.1 + BitVec.ofNat 32 k ≠ q.1 := by
    intro q hq h
    have hd : InDataSegment (p.1 + BitVec.ofNat 32 k) := h ▸ hdata q hq
    have ht : InTextSegment (p.1 + BitVec.ofNat 32 k) := inTextSegment_add_of_aligned (n := .word) hal hk hseg
    unfold InDataSegment at hd
    unfold InTextSegment at ht
    omega
  rw [Image.memory, byteAt_installData_of_ne (Memory.wf_installText rfl _) hnotdata]
  exact byteAt_installText rfl (fun q hq => (htext q hq).1) hnd hp hk

/-! ### Text is never written (20_memory.md R67) -/

section
variable {s t : State} {a : Word} (hm : Memory.wf s.mem = true) (ha : isTextSegment a = true)
include hm ha

theorem exec_keeps_text {i : Instr} (h : exec i s = .next t) : Memory.byteAt t.mem a = Memory.byteAt s.mem a := by
  rcases exec_cases i s with ⟨b, e, hx, hb, -, -⟩ | ⟨b, n, hx, hb, -⟩ <;> cases hx.symm.trans h
  · rw [takeException_mem, hb]
  · rw [schedule_mem, byteAt_of_stored hm hb.stored ha]

theorem instrStep_keeps_text (h : s.instrStep = .next t) : Memory.byteAt t.mem a = Memory.byteAt s.mem a := by
  rcases instrStep_cases s with ⟨e, hx⟩ | hx | ⟨i, hx⟩
  · cases hx.symm.trans h
    rw [takeException_mem]
  · cases hx.symm.trans h
    rw [schedule_mem]
  · exact exec_keeps_text hm ha (hx ▸ h)

end

@[simp] theorem endStep_mem (s : State) : s.endStep.mem = s.mem := by
  unfold State.endStep
  split <;> rfl

/-- A step that takes no `load` and no `reset` writes no fetchable byte: the other commands leave memory alone, and the one
instruction a step may execute keeps text. -/
theorem step_keeps_text {s t : State} {a : Word} (hm : Memory.wf s.mem = true) (h : step s = .next t)
    (hload : ∀ img rest, s.commands ≠ .load img :: rest) (hreset : ∀ rest, s.commands ≠ .reset :: rest)
    (ha : isTextSegment a = true) : Memory.byteAt t.mem a = Memory.byteAt s.mem a := by
  cases step_cases h with
  | load img rest hc => exact absurd hc (hload img rest)
  | reset img rest hc => exact absurd hc (hreset rest)
  | single rest u _ _ hx e =>
    rw [e, endStep_mem]
    exact instrStep_keeps_text (s := Begun s rest) hm ha hx
  | looped _ _ hx => exact instrStep_keeps_text (s := Begun s []) hm ha hx
  | refused _ _ _ e => rw [e]
  | control _ _ _ _ _ _ _ _ e => rw [e]
  | breakpoint _ _ _ _ _ _ e => rw [e]
  | pausedAt _ _ e => rw [e]

/-- While text is intact, a fetch of a word the image defines gives the image's word. -/
theorem fetch_of_textIntact {s : State} {img : Image} {a w : Word} (htext : s.TextIntact) (himg : s.image = some img)
    (hv : img.valid = true) (hw : (a, w) ∈ img.text) (hc : s.check a .word .fetch = true) : s.fetch a = .word w := by
  rw [fetch_of_defined hc (imageDefines_iff.2 ⟨img, w, himg, hw⟩), load_word_eq_of_byteAt fun k hk => ?_]
  obtain ⟨hal, hperm, -⟩ := (check_iff s a .word .fetch).1 hc
  have hseg : InTextSegment (a + BitVec.ofNat 32 k) :=
    inTextSegment_add_of_aligned hal hk ((segPermits_fetch_iff a).1 hperm)
  rw [htext _ ((isTextSegment_iff _).2 hseg), State.loadedByte, himg]
  exact byteAt_memory_of_mem_text hv hw hk

/-- Settles O50: `step_keeps_text` and `exec_keeps_text` for the bytes; `fetch_of_textIntact` and `FETCH_EMPTY`'s two answers
for what is fetched. -/
theorem textIsNeverWritten : Obligations.TextIsNeverWritten := by
  refine ⟨fun s t a hm h hload hreset ha => step_keeps_text hm h hload hreset ((isTextSegment_iff a).2 ha),
    fun i s t a hm h ha => exec_keeps_text hm ((isTextSegment_iff a).2 ha) h,
    fun s img a w htext himg hv hw hc => fetch_of_textIntact htext himg hv hw hc, fun s a hc hnone => ?_⟩
  have hd : s.imageDefines a = false := by
    rw [Bool.eq_false_iff, ne_eq, imageDefines_iff]
    rintro ⟨img, w, himg, hw⟩
    exact hnone img w himg hw
  cases he : s.cfg.fetchEmpty with
  | zeroWord => exact fetch_of_zeroWord hc hd he
  | halt => exact fetch_of_halt hc hd he

end Sys2Proof.Machine
end

section
/-! Decoding and encoding (30_encoding.md R80 to R91). `WordOf w i` names the words of an instruction, and `decode` accepts
exactly those (`decode_eq_ok_iff_wordOf`): the round trips and the table's masks follow from it. The other way, a word inside
a row of the table decodes by the fields its mask fixes (`exists_decodeWord_of_row`). -/

namespace Sys2Proof.Laws.EncodeFitsRow

/-- The family's lemmas together. -/
theorem holds (i : Instr) : Statement i := by
  cases i
  exacts [add .., addu .., sub .., subu .., addi .., addiu .., and .., or .., xor .., nor .., andi .., ori ..,
    xori .., lui .., slt .., sltu .., slti .., sltiu .., sll .., srl .., sra .., sllv .., srlv .., srav .., movz ..,
    movn .., clz .., clo .., nop, mult .., multu .., div .., divu .., mfhi .., mflo .., mthi .., mtlo .., mul ..,
    madd .., maddu .., msub .., msubu .., lb .., lbu .., lh .., lhu .., lw .., lwl .., lwr .., sb .., sh .., sw ..,
    swl .., swr .., ll .., sc .., beq .., bne .., blez .., bgtz .., bltz .., bgez .., bltzal .., bgezal .., j ..,
    jal .., jr .., jalr .., syscall, brk .., teq .., tne .., tge .., tgeu .., tlt .., tltu .., teqi .., tnei ..,
    tgei .., tgeiu .., tlti .., tltiu .., eret, mfc0 .., mtc0 ..]

end Sys2Proof.Laws.EncodeFitsRow

namespace Sys2Proof.Machine

/-! ### A word is given by its fields (30_encoding.md R81, R82) -/

theorem rType_eq_iff {w : Word} {op : BitVec 6} {rs rt rd : Reg} {sa : BitVec 5} {f : BitVec 6} :
    rType op rs rt rd sa f = w ↔
      opOf w = op ∧ rsOf w = rs ∧ rtOf w = rt ∧ rdOf w = rd ∧ saOf w = sa ∧ functOf w = f := by
  constructor
  · rintro rfl
    simp
  · rintro ⟨rfl, rfl, rfl, rfl, rfl, rfl⟩
    unfold rType opOf rsOf rtOf rdOf saOf functOf
    repeat rw [BitVec.extractLsb'_append_extractLsb'_eq_extractLsb' (by decide)]
    exact BitVec.extractLsb'_eq_self

theorem iType_eq_iff {w : Word} {op : BitVec 6} {rs rt : Reg} {imm : BitVec 16} :
    iType op rs rt imm = w ↔ opOf w = op ∧ rsOf w = rs ∧ rtOf w = rt ∧ immOf w = imm := by
  constructor
  · rintro rfl
    simp
  · rintro ⟨rfl, rfl, rfl, rfl⟩
    unfold iType opOf rsOf rtOf immOf
    repeat rw [BitVec.extractLsb'_append_extractLsb'_eq_extractLsb' (by decide)]
    exact BitVec.extractLsb'_eq_self

theorem jType_eq_iff {w : Word} {op : BitVec 6} {index : BitVec 26} :
    jType op index = w ↔ opOf w = op ∧ indexOf w = index := by
  constructor
  · rintro rfl
    simp
  · rintro ⟨rfl, rfl⟩
    unfold jType opOf indexOf
    rw [BitVec.extractLsb'_append_extractLsb'_eq_extractLsb' (by decide)]
    exact BitVec.extractLsb'_eq_self

theorem trapType_eq_iff {w : Word} {rs rt : Reg} {code : BitVec 10} {f : BitVec 6} :
    trapType rs rt code f = w ↔
      opOf w = 0#6 ∧ rsOf w = rs ∧ rtOf w = rt ∧ code10Of w = code ∧ functOf w = f := by
  constructor
  · rintro rfl
    simp
  · rintro ⟨hop, rfl, rfl, rfl, rfl⟩
    unfold trapType
    rw [← hop]
    unfold opOf rsOf rtOf code10Of functOf
    repeat rw [BitVec.extractLsb'_append_extractLsb'_eq_extractLsb' (by decide)]
    exact BitVec.extractLsb'_eq_self

theorem codeType_eq_iff {w : Word} {code : BitVec 20} {f : BitVec 6} :
    codeType code f = w ↔ opOf w = 0#6 ∧ code20Of w = code ∧ functOf w = f := by
  constructor
  · rintro rfl
    simp
  · rintro ⟨hop, rfl, rfl⟩
    unfold codeType
    rw [← hop]
    unfold opOf code20Of functOf
    repeat rw [BitVec.extractLsb'_append_extractLsb'_eq_extractLsb' (by decide)]
    exact BitVec.extractLsb'_eq_self

/-! ### The decoder's answers and its maps (30_encoding.md R84, R87) -/

theorem decode_eq_ok_iff {w : Word} {i : Instr} : decode w = .ok i ↔ decodeWord w = some i := by
  unfold decode
  cases decodeWord w <;> simp

theorem refused_iff {w : Word} : Refused w ↔ decodeWord w = none := by
  unfold Refused decode
  cases decodeWord w <;> simp

theorem accept_eq_some_iff {b : Bool} {i j : Instr} : accept b i = some j ↔ b = true ∧ i = j := by
  cases b <;> simp [accept]

theorem accept_eq_none {b : Bool} {i : Instr} (h : ¬b = true) : accept b i = none :=
  if_neg h

section
variable {i : Instr} {w : Word}

theorem decodeWord_of_special (hop : opOf w = 0x00#6) : decodeWord w = decodeSpecial w := by
  rw [decodeWord, hop]
  rfl

theorem decodeWord_of_regimm (hop : opOf w = 0x01#6) : decodeWord w = decodeRegimm w := by
  rw [decodeWord, hop]
  rfl

theorem decodeWord_of_cop0 (hop : opOf w = 0x10#6) : decodeWord w = decodeCop0 w := by
  rw [decodeWord, hop]
  rfl

theorem decodeWord_of_special2 (hop : opOf w = 0x1C#6) : decodeWord w = decodeSpecial2 w := by
  rw [decodeWord, hop]
  rfl

/-! ### `sll` and the zero word (30_encoding.md R84, R98) -/

theorem wellFormed_sll_iff {rd rt : Reg} {sa : BitVec 5} :
    (Instr.sll rd rt sa).wellFormed = true ↔ ¬(rd == 0#5 && rt == 0#5 && sa == 0#5) = true := by
  rw [Instr.wellFormed, Bool.not_eq_true', Bool.not_eq_true]

theorem eq_zero_of_fields (hop : opOf w = 0x00#6) (hrs : rsOf w = 0#5)
    (hz : (rdOf w == 0#5 && rtOf w == 0#5 && saOf w == 0#5) = true) (hf : functOf w = 0x00#6) : w = 0#32 := by
  simp only [Bool.and_eq_true, beq_iff_eq] at hz
  obtain ⟨⟨hrd, hrt⟩, hsa⟩ := hz
  exact (rType_eq_iff.2 ⟨hop, hrs, hrt, hrd, hsa, hf⟩).symm

/-! ### The words of an instruction (30_encoding.md R99) -/

/-- The words that stand for `i`: the encoder's, and for the rows with an ignored field (30_encoding.md R85) the word with
any value in that field. -/
inductive WordOf (w : Word) : Instr → Prop
  | encoded {i : Instr} (h : i.wellFormed = true) (hw : encode i = w) : WordOf w i
  | syscall (code : BitVec 20) (hw : codeType code 0x0C#6 = w) : WordOf w .syscall
  | clz (rd rs rt : Reg) (hw : rType 0x1C#6 rs rt rd 0#5 0x20#6 = w) : WordOf w (.clz rd rs)
  | clo (rd rs rt : Reg) (hw : rType 0x1C#6 rs rt rd 0#5 0x21#6 = w) : WordOf w (.clo rd rs)

theorem wordOf_of_decodeSpecial (hop : opOf w = 0x00#6) (h : decodeSpecial w = some i) : WordOf w i := by
  unfold decodeSpecial at h
  split at h
  case h_1 hf =>
    split at h <;> obtain ⟨hrs, rfl⟩ := accept_eq_some_iff.1 h
    case isTrue hzero =>
      simp only [beq_iff_eq] at hrs
      exact .encoded rfl (eq_zero_of_fields hop hrs hzero hf).symm
    case isFalse hne => exact .encoded (wellFormed_sll_iff.2 hne) (rType_eq_iff.2 (by simp_all))
  case h_11 hf =>
    cases h
    exact .syscall _ (codeType_eq_iff.2 ⟨hop, rfl, hf⟩)
  case h_12 hf =>
    cases h
    exact .encoded rfl (codeType_eq_iff.2 ⟨hop, rfl, hf⟩)
  case h_31 hf | h_32 hf | h_33 hf | h_34 hf | h_35 hf | h_36 hf =>
    cases h
    exact .encoded rfl (trapType_eq_iff.2 ⟨hop, rfl, rfl, rfl, hf⟩)
  case h_37 => cases h
  all_goals
    obtain ⟨hz, rfl⟩ := accept_eq_some_iff.1 h
    exact .encoded rfl (rType_eq_iff.2 (by simp_all))

theorem wordOf_of_decodeRegimm (hop : opOf w = 0x01#6) (h : decodeRegimm w = some i) : WordOf w i := by
  unfold decodeRegimm at h
  split at h <;> cases h
  all_goals
    rename_i hrt
    exact .encoded rfl (iType_eq_iff.2 ⟨hop, rfl, hrt, rfl⟩)

theorem wordOf_of_decodeSpecial2 (hop : opOf w = 0x1C#6) (h : decodeSpecial2 w = some i) : WordOf w i := by
  unfold decodeSpecial2 at h
  split at h
  case h_8 => cases h
  all_goals obtain ⟨hz, rfl⟩ := accept_eq_some_iff.1 h
  case h_6 hf => exact .clz _ _ (rtOf w) (rType_eq_iff.2 (by simp_all))
  case h_7 hf => exact .clo _ _ (rtOf w) (rType_eq_iff.2 (by simp_all))
  all_goals exact .encoded rfl (rType_eq_iff.2 (by simp_all))

theorem wordOf_of_decodeCop0 (hop : opOf w = 0x10#6) (h : decodeCop0 w = some i) : WordOf w i := by
  unfold decodeCop0 at h
  split at h
  case h_4 => cases h
  all_goals
    obtain ⟨hz, rfl⟩ := accept_eq_some_iff.1 h
    exact .encoded (by simp_all [Instr.wellFormed]) (rType_eq_iff.2 (by simp_all))

theorem wordOf_of_decodeWord (h : decodeWord w = some i) : WordOf w i := by
  unfold decodeWord at h
  split at h
  case h_1 hop => exact wordOf_of_decodeSpecial hop h
  case h_2 hop => exact wordOf_of_decodeRegimm hop h
  case h_17 hop => exact wordOf_of_decodeCop0 hop h
  case h_18 hop => exact wordOf_of_decodeSpecial2 hop h
  case h_3 hop | h_4 hop =>
    cases h
    exact .encoded rfl (jType_eq_iff.2 ⟨hop, rfl⟩)
  case h_7 hop | h_8 hop =>
    obtain ⟨hz, rfl⟩ := accept_eq_some_iff.1 h
    exact .encoded rfl (iType_eq_iff.2 ⟨hop, rfl, by simpa using hz, rfl⟩)
  case h_16 hop =>
    obtain ⟨hz, rfl⟩ := accept_eq_some_iff.1 h
    exact .encoded rfl (iType_eq_iff.2 ⟨hop, by simpa using hz, rfl, rfl⟩)
  all_goals cases h
  all_goals
    rename_i hop
    exact .encoded rfl (iType_eq_iff.2 ⟨hop, rfl, rfl, rfl⟩)

theorem decodeWord_encode (h : i.wellFormed = true) : decodeWord (encode i) = some i := by
  cases i <;> rw [encode]
  case nop => decide
  case sll rd rt sa =>
    rw [decodeWord_of_special (opOf_rType ..), decodeSpecial, functOf_rType, rsOf_rType, rtOf_rType, rdOf_rType,
      saOf_rType]
    exact if_neg (wellFormed_sll_iff.1 h)
  case eret => decide
  case mfc0 | mtc0 =>
    rw [decodeWord_of_cop0 (opOf_rType ..), decodeCop0, rsOf_rType, rtOf_rType, rdOf_rType, saOf_rType, functOf_rType]
    exact if_pos h
  case j | jal =>
    rw [decodeWord, opOf_jType, indexOf_jType]
    rfl
  case mul | madd | maddu | msub | msubu | clz | clo =>
    rw [decodeWord_of_special2 (opOf_rType ..), decodeSpecial2, functOf_rType, rsOf_rType, rtOf_rType, rdOf_rType,
      saOf_rType]
    rfl
  case bltz | bgez | bltzal | bgezal | teqi | tnei | tgei | tgeiu | tlti | tltiu =>
    rw [decodeWord_of_regimm (opOf_iType ..), decodeRegimm, rsOf_iType, rtOf_iType, immOf_iType]
    rfl
  case teq | tne | tge | tgeu | tlt | tltu =>
    rw [decodeWord_of_special (opOf_trapType ..), decodeSpecial, functOf_trapType, rsOf_trapType, rtOf_trapType,
      code10Of_trapType]
    rfl
  case syscall | brk =>
    rw [decodeWord_of_special (opOf_codeType ..), decodeSpecial, functOf_codeType, code20Of_codeType]
    rfl
  case addi | addiu | andi | ori | xori | lui | slti | sltiu | lb | lbu | lh | lhu | lw | lwl | lwr | sb | sh | sw | swl
      | swr | ll | sc | beq | bne | blez | bgtz =>
    rw [decodeWord, opOf_iType, rsOf_iType, rtOf_iType, immOf_iType]
    rfl
  all_goals
    rw [decodeWord_of_special (opOf_rType ..), decodeSpecial, functOf_rType, rsOf_rType, rtOf_rType, rdOf_rType,
      saOf_rType]
    rfl

/-- The decoder accepts exactly the words of an instruction. -/
theorem decode_eq_ok_iff_wordOf : decode w = .ok i ↔ WordOf w i := by
  rw [decode_eq_ok_iff]
  refine ⟨wordOf_of_decodeWord, fun h => ?_⟩
  rcases h with ⟨h, rfl⟩ | ⟨code, rfl⟩ | ⟨rd, rs, rt, rfl⟩ | ⟨rd, rs, rt, rfl⟩
  · exact decodeWord_encode h
  · rw [decodeWord_of_special (opOf_codeType ..), decodeSpecial, functOf_codeType]
    rfl
  all_goals
    rw [decodeWord_of_special2 (opOf_rType ..), decodeSpecial2, functOf_rType, rsOf_rType, rdOf_rType, saOf_rType]
    rfl

end

/-- Settles O2: the words named are words of their instructions, and those decode. -/
theorem decodeOfEncode : Obligations.DecodeOfEncode :=
  ⟨fun _ h => decode_eq_ok_iff_wordOf.2 (.encoded h rfl), fun code => decode_eq_ok_iff_wordOf.2 (.syscall code rfl),
    fun rd rs rt => decode_eq_ok_iff_wordOf.2 (.clz rd rs rt rfl),
    fun rd rs rt => decode_eq_ok_iff_wordOf.2 (.clo rd rs rt rfl)⟩

/-- Settles O3: what decodes is a word of the instruction. -/
theorem encodeOfDecode : Obligations.EncodeOfDecode := by
  intro w i h
  cases decode_eq_ok_iff_wordOf.1 h with
  | encoded hwf hw => exact ⟨hwf, .inr (.inr hw)⟩
  | syscall => exact ⟨rfl, .inl rfl⟩
  | clz rd rs => exact ⟨rfl, .inr (.inl ⟨rd, rs, .inl rfl⟩)⟩
  | clo rd rs => exact ⟨rfl, .inr (.inl ⟨rd, rs, .inr rfl⟩)⟩

/-! ### The rows of the opcode table (30_encoding.md R84) -/

section
variable {i : Instr} {w : Word}

theorem row_of_wordOf (h : WordOf w i) : w &&& i.mask = i.matchBits ∧ i.extra w = true := by
  cases h with
  | encoded hwf hw =>
    obtain ⟨hrow, hextra⟩ := Laws.EncodeFitsRow.holds i
    exact hw ▸ ⟨hrow, hextra hwf⟩
  | syscall code hw => exact hw ▸ ⟨Laws.fits_code_FC00003F code _, rfl⟩
  | clz rd rs rt hw | clo rd rs rt hw => exact hw ▸ ⟨Laws.fits_r_FC0007FF .., rfl⟩

section
variable {m b : Word} (h : w &&& m = b)
include h

/-- A field that the mask covers has the match's value. -/
theorem extractLsb'_eq_of_and_eq {s n : Nat} (hm : m.extractLsb' s n = BitVec.allOnes n) :
    w.extractLsb' s n = b.extractLsb' s n := by
  rw [← h, BitVec.extractLsb'_and, hm, BitVec.and_allOnes]

theorem opOf_of_row (hm : opOf m = 0x3F#6) : opOf w = opOf b := extractLsb'_eq_of_and_eq h hm
theorem rsOf_of_row (hm : rsOf m = 0x1F#5) : rsOf w = rsOf b := extractLsb'_eq_of_and_eq h hm
theorem rtOf_of_row (hm : rtOf m = 0x1F#5) : rtOf w = rtOf b := extractLsb'_eq_of_and_eq h hm
theorem rdOf_of_row (hm : rdOf m = 0x1F#5) : rdOf w = rdOf b := extractLsb'_eq_of_and_eq h hm
theorem saOf_of_row (hm : saOf m = 0x1F#5) : saOf w = saOf b := extractLsb'_eq_of_and_eq h hm
theorem functOf_of_row (hm : functOf m = 0x3F#6) : functOf w = functOf b := extractLsb'_eq_of_and_eq h hm

end

/-- A nonzero word of a row decodes to an instruction of that row: the cases are grouped by the map and by the fields beside
the opcode that the mask fixes. Only `sll` needs that the word is not `nop`'s, and only `mfc0` and `mtc0` the
extra condition. -/
theorem exists_decodeWord_of_row (h : w &&& i.mask = i.matchBits) (hextra : i.extra w = true) (h0 : w ≠ 0#32) :
    ∃ j : Instr, decodeWord w = some j ∧ j.mask = i.mask ∧ j.matchBits = i.matchBits := by
  cases i <;> dsimp only [Instr.mask, Instr.matchBits] at h
  case nop => exact absurd ((BitVec.and_allOnes (x := w)).symm.trans h) h0
  case eret =>
    obtain rfl : w = 0x42000018#32 := (BitVec.and_allOnes (x := w)).symm.trans h
    exact ⟨.eret, by decide, rfl, rfl⟩
  case sll =>
    have hop : opOf w = 0x00#6 := opOf_of_row h rfl
    have hrs : rsOf w = 0#5 := rsOf_of_row h rfl
    have hf : functOf w = 0x00#6 := functOf_of_row h rfl
    rw [decodeWord_of_special hop, decodeSpecial, hf, hrs]
    exact ⟨_, if_neg fun hz => h0 (eq_zero_of_fields hop hrs hz hf), rfl, rfl⟩
  case mfc0 | mtc0 =>
    rw [decodeWord_of_cop0 (opOf_of_row h rfl), decodeCop0, rsOf_of_row h rfl, saOf_of_row h rfl, functOf_of_row h rfl]
    exact ⟨_, if_pos hextra, rfl, rfl⟩
  case add | addu | sub | subu | and | or | xor | nor | slt | sltu | sllv | srlv | srav | movz | movn =>
    rw [decodeWord_of_special (opOf_of_row h rfl), decodeSpecial, functOf_of_row h rfl, saOf_of_row h rfl]
    exact ⟨_, rfl, rfl, rfl⟩
  case srl | sra =>
    rw [decodeWord_of_special (opOf_of_row h rfl), decodeSpecial, functOf_of_row h rfl, rsOf_of_row h rfl]
    exact ⟨_, rfl, rfl, rfl⟩
  case mult | multu | div | divu =>
    rw [decodeWord_of_special (opOf_of_row h rfl), decodeSpecial, functOf_of_row h rfl, rdOf_of_row h rfl,
      saOf_of_row h rfl]
    exact ⟨_, rfl, rfl, rfl⟩
  case mfhi | mflo =>
    rw [decodeWord_of_special (opOf_of_row h rfl), decodeSpecial, functOf_of_row h rfl, rsOf_of_row h rfl,
      rtOf_of_row h rfl, saOf_of_row h rfl]
    exact ⟨_, rfl, rfl, rfl⟩
  case mthi | mtlo | jr =>
    rw [decodeWord_of_special (opOf_of_row h rfl), decodeSpecial, functOf_of_row h rfl, rtOf_of_row h rfl,
      rdOf_of_row h rfl, saOf_of_row h rfl]
    exact ⟨_, rfl, rfl, rfl⟩
  case jalr =>
    rw [decodeWord_of_special (opOf_of_row h rfl), decodeSpecial, functOf_of_row h rfl, rtOf_of_row h rfl,
      saOf_of_row h rfl]
    exact ⟨_, rfl, rfl, rfl⟩
  case syscall | brk | tge | tgeu | tlt | tltu | teq | tne =>
    rw [decodeWord_of_special (opOf_of_row h rfl), decodeSpecial, functOf_of_row h rfl]
    exact ⟨_, rfl, rfl, rfl⟩
  case mul | clz | clo =>
    rw [decodeWord_of_special2 (opOf_of_row h rfl), decodeSpecial2, functOf_of_row h rfl, saOf_of_row h rfl]
    exact ⟨_, rfl, rfl, rfl⟩
  case madd | maddu | msub | msubu =>
    rw [decodeWord_of_special2 (opOf_of_row h rfl), decodeSpecial2, functOf_of_row h rfl, rdOf_of_row h rfl,
      saOf_of_row h rfl]
    exact ⟨_, rfl, rfl, rfl⟩
  case bltz | bgez | bltzal | bgezal | teqi | tnei | tgei | tgeiu | tlti | tltiu =>
    rw [decodeWord_of_regimm (opOf_of_row h rfl), decodeRegimm, rtOf_of_row h rfl]
    exact ⟨_, rfl, rfl, rfl⟩
  case blez | bgtz =>
    rw [decodeWord, opOf_of_row h rfl, rtOf_of_row h rfl]
    exact ⟨_, rfl, rfl, rfl⟩
  case lui =>
    rw [decodeWord, opOf_of_row h rfl, rsOf_of_row h rfl]
    exact ⟨_, rfl, rfl, rfl⟩
  all_goals
    rw [decodeWord, opOf_of_row h rfl]
    exact ⟨_, rfl, rfl, rfl⟩

end

/-- Settles O4: soundness by `row_of_wordOf`, completeness by `exists_decodeWord_of_row`. -/
theorem decodeFollowsTheTable : Obligations.DecodeFollowsTheTable := by
  refine ⟨fun w i h => row_of_wordOf (decode_eq_ok_iff_wordOf.1 h), fun w i h hextra h0 => ?_, by decide, fun w h => ?_⟩
  · obtain ⟨j, hj, hrow⟩ := exists_decodeWord_of_row h hextra h0
    exact ⟨j, decode_eq_ok_iff.2 hj, hrow⟩
  · rw [← Refused, refused_iff, Option.eq_none_iff_forall_ne_some]
    exact fun i hi => h i (row_of_wordOf (wordOf_of_decodeWord hi))

/-! ### Unassigned encodings (30_encoding.md R86 to R91) -/

/-- The assigned values of `op` (30_encoding.md R87). -/
def assignedOps : List (BitVec 6) :=
  [0x00#6, 0x01#6, 0x02#6, 0x03#6, 0x04#6, 0x05#6, 0x06#6, 0x07#6, 0x08#6, 0x09#6, 0x0A#6, 0x0B#6, 0x0C#6, 0x0D#6, 0x0E#6,
    0x0F#6, 0x10#6, 0x1C#6, 0x20#6, 0x21#6, 0x22#6, 0x23#6, 0x24#6, 0x25#6, 0x26#6, 0x28#6, 0x29#6, 0x2A#6, 0x2B#6, 0x2E#6,
    0x30#6, 0x38#6]

/-- The assigned values of `funct` under SPECIAL (30_encoding.md R88). -/
def specialFuncts : List (BitVec 6) :=
  [0x00#6, 0x02#6, 0x03#6, 0x04#6, 0x06#6, 0x07#6, 0x08#6, 0x09#6, 0x0A#6, 0x0B#6, 0x0C#6, 0x0D#6, 0x10#6, 0x11#6, 0x12#6,
    0x13#6, 0x18#6, 0x19#6, 0x1A#6, 0x1B#6, 0x20#6, 0x21#6, 0x22#6, 0x23#6, 0x24#6, 0x25#6, 0x26#6, 0x27#6, 0x2A#6, 0x2B#6,
    0x30#6, 0x31#6, 0x32#6, 0x33#6, 0x34#6, 0x36#6]

/-- The assigned values of `rt` under REGIMM (30_encoding.md R89). -/
def regimmRts : List (BitVec 5) :=
  [0x00#5, 0x01#5, 0x08#5, 0x09#5, 0x0A#5, 0x0B#5, 0x0C#5, 0x0E#5, 0x10#5, 0x11#5]

/-- The assigned values of `funct` under SPECIAL2 (30_encoding.md R90). -/
def special2Functs : List (BitVec 6) := [0x00#6, 0x01#6, 0x02#6, 0x04#6, 0x05#6, 0x20#6, 0x21#6]

section
variable {w : Word}

theorem decodeWord_eq_none (h : opOf w ∉ assignedOps) : decodeWord w = none := by
  unfold decodeWord
  split
  case h_33 => rfl
  all_goals
    rename_i hop
    rw [hop] at h
    exact absurd (by decide) h

theorem decodeSpecial_eq_none (h : functOf w ∉ specialFuncts) : decodeSpecial w = none := by
  unfold decodeSpecial
  split
  case h_37 => rfl
  all_goals
    rename_i hf
    rw [hf] at h
    exact absurd (by decide) h

theorem decodeRegimm_eq_none (h : rtOf w ∉ regimmRts) : decodeRegimm w = none := by
  unfold decodeRegimm
  split
  case h_11 => rfl
  all_goals
    rename_i hrt
    rw [hrt] at h
    exact absurd (by decide) h

theorem decodeSpecial2_eq_none (h : functOf w ∉ special2Functs) : decodeSpecial2 w = none := by
  unfold decodeSpecial2
  split
  case h_8 => rfl
  all_goals
    rename_i hf
    rw [hf] at h
    exact absurd (by decide) h

theorem decodeCop0_eq_none (h : rsOf w ∉ [0x00#5, 0x04#5, 0x10#5]) : decodeCop0 w = none := by
  unfold decodeCop0
  split
  case h_4 => rfl
  all_goals
    rename_i hrs
    rw [hrs] at h
    exact absurd (by decide) h

/-- `mfc0` and `mtc0` have bits 10:0 zero and name a register that exists (30_encoding.md R91). -/
theorem decodeCop0_eq_none_of_move (hrs : rsOf w ∈ [0x00#5, 0x04#5])
    (h : w.extractLsb' 0 11 ≠ 0#11 ∨ rdOf w ∉ [8#5, 12#5, 13#5, 14#5]) : decodeCop0 w = none := by
  have hnot : ¬(saOf w == 0#5 && functOf w == 0#6 && isCp0Number (rdOf w)) = true := by
    simp only [Bool.and_eq_true, beq_iff_eq]
    rintro ⟨⟨hsa, hf⟩, hrd⟩
    have hlow : w.extractLsb' 0 11 = saOf w ++ functOf w :=
      (BitVec.extractLsb'_append_extractLsb'_eq_extractLsb' (start₁ := 0) (len₁ := 6) (len₂ := 5) rfl).symm
    rw [hsa, hf] at hlow
    exact h.elim (· hlow) (· (by simpa [isCp0Number, or_assoc] using hrd))
  obtain h | h : rsOf w = 0x00#5 ∨ rsOf w = 0x04#5 := by simpa using hrs
  all_goals
    rw [decodeCop0, h]
    exact accept_eq_none hnot

end

/-- Settles O5: the value is outside the map's assigned ones, or the COP0 form is none of the three. -/
theorem excludedEncodingsRefused : Obligations.ExcludedEncodingsRefused := by
  intro w
  simp only [refused_iff]
  refine ⟨fun hop => ?_, fun hop hf => ?_, fun hop hf => ?_, fun hop hrt => ?_, fun hop hrt => ?_, fun hop hf => ?_,
    fun hop hrs => ?_, fun hop hrs hw => ?_, fun hop hrs hcp0 => ?_⟩
  · exact decodeWord_eq_none ((by decide : ∀ op ∈ _, op ∉ assignedOps) _ hop)
  · rw [decodeWord_of_special hop]
    exact decodeSpecial_eq_none ((by decide : ∀ f ∈ _, f ∉ specialFuncts) _ hf)
  · rw [decodeWord_of_special hop]
    exact decodeSpecial_eq_none ((by decide : ∀ f : BitVec 6, 0x38 ≤ f.toNat → f ∉ specialFuncts) _ hf)
  · rw [decodeWord_of_regimm hop]
    exact decodeRegimm_eq_none ((by decide : ∀ rt ∈ _, rt ∉ regimmRts) _ hrt)
  · rw [decodeWord_of_regimm hop]
    exact decodeRegimm_eq_none ((by decide : ∀ rt : BitVec 5, 0x12 ≤ rt.toNat → rt ∉ regimmRts) _ hrt)
  · rw [decodeWord_of_special2 hop]
    exact decodeSpecial2_eq_none hf
  · rw [decodeWord_of_cop0 hop]
    exact decodeCop0_eq_none hrs
  · rw [decodeWord_of_cop0 hop, decodeCop0, hrs]
    refine accept_eq_none fun hz => hw ?_
    have heret : rType 0x10#6 0x10#5 0#5 0#5 0#5 0x18#6 = w := rType_eq_iff.2 ⟨hop, hrs, by simp_all⟩
    exact heret.symm
  · rw [decodeWord_of_cop0 hop]
    exact decodeCop0_eq_none_of_move hrs hcp0

/-! ### Reserved fields (30_encoding.md R85) -/

/-- Settles O6: each instruction of the clause accepts only under the reserved fields' zero check. -/
theorem reservedFieldsMustBeZero : Obligations.ReservedFieldsMustBeZero := by
  intro w
  simp only [refused_iff]
  refine ⟨?shift, ?lui, ?sa, ?special2Sa, ?fromRs, ?toRd, ?product, ?accumulate, ?jalr, ?branch, ?cop0⟩
  case shift =>
    intro hop hf hne
    rw [decodeWord_of_special hop]
    generalize hw : functOf w = f at hf
    have hnot : ¬(rsOf w == 0#5) = true := by simpa using hne
    fin_cases hf <;> rw [decodeSpecial, hw]
    · simp only [accept_eq_none hnot, ite_self]
    all_goals exact accept_eq_none hnot
  case sa | fromRs | toRd | product =>
    intro hop hf hne
    rw [decodeWord_of_special hop]
    generalize hw : functOf w = f at hf
    fin_cases hf <;> rw [decodeSpecial, hw] <;> exact accept_eq_none fun hz => by simp_all
  case special2Sa | accumulate =>
    intro hop hf hne
    rw [decodeWord_of_special2 hop]
    generalize hw : functOf w = f at hf
    fin_cases hf <;> rw [decodeSpecial2, hw] <;> exact accept_eq_none fun hz => by simp_all
  case jalr =>
    intro hop hf hne
    rw [decodeWord_of_special hop, decodeSpecial, hf]
    exact accept_eq_none fun hz => by simp_all
  case lui =>
    intro hop hne
    rw [decodeWord, hop]
    exact accept_eq_none fun hz => by simp_all
  case branch =>
    intro hop hne
    generalize hw : opOf w = op at hop
    fin_cases hop <;> rw [decodeWord, hw] <;> exact accept_eq_none fun hz => by simp_all
  case cop0 =>
    intro hop hrs hne
    rw [decodeWord_of_cop0 hop]
    exact decodeCop0_eq_none_of_move hrs (.inl hne)

/-! ### Sample words, and the step on a refused word -/

/-- Settles O1: the decoder runs on each word. -/
theorem sampleWordsDecode : Obligations.SampleWordsDecode := by
  unfold Obligations.SampleWordsDecode
  decide

theorem instrStep_of_refused {s : State} {w : Word} {e : DecodeError} (h : s.fetch s.pc = .word w)
    (he : decode w = .error e) : s.instrStep = .next (s.takeException .invalidOpcode) := by
  simp [State.instrStep, h, he]

/-- Settles O9: the exception is fatal. -/
theorem invalidOpcodeEndsTheRun : Obligations.InvalidOpcodeEndsTheRun :=
  fun s _ h he => ⟨_, instrStep_of_refused h he, endsFaulted_takeException s rfl⟩

end Sys2Proof.Machine
end

section
/-! Arithmetic, logic, shift, compare and move (40_arith_logic.md). Each of these instructions ends in `State.retire`,
`State.retireChecked` or `State.schedule .seq`: what a word that runs so has as its effect is said once
(`runs_retire`, `checksOverflow_of_exec`, `runs_shiftLeft` and the like), and a clause about an instruction adds what its
result is. -/

namespace Sys2Proof.Machine

/-! ### A word that runs one of these instructions -/

section
variable {w : Word} {i : Instr} {s t : State} {rd : Reg} {v u : Word}

theorem runs_of_exec {P : State → Prop} (hw : WordOf w i) (hx : exec i s = .next t) (ht : P t) : Runs w i s P :=
  ⟨decode_eq_ok_iff_wordOf.2 hw, t, hx, ht⟩

theorem runs_retire (hw : WordOf w i) (hx : exec i s = .next (s.retire rd v)) (hv : v = u) :
    Runs w i s (fun t => RegEffect s t rd u) :=
  runs_of_exec hw hx (hv ▸ regEffect_retire s rd v)

theorem runs_seq (hw : WordOf w i) (hx : exec i s = .next (s.schedule .seq)) : Runs w i s (fun t => NoEffect s t) :=
  runs_of_exec hw hx (noEffect_seq s)

end

/-! ### The immediates as numbers (30_encoding.md R83) -/

theorem toInt_simm (imm : BitVec 16) : (simm imm).toInt = imm.toInt :=
  BitVec.toInt_signExtend_of_le (by decide)

theorem zimm_eq_ofNat (imm : BitVec 16) : zimm imm = BitVec.ofNat 32 imm.toNat :=
  (BitVec.ofNat_toNat 32 imm).symm

theorem uimm_eq_ofNat (imm : BitVec 16) : uimm imm = BitVec.ofNat 32 (imm.toNat * 2 ^ 16) := by
  apply BitVec.eq_of_toNat_eq
  have hlt := imm.isLt
  rw [uimm, BitVec.toNat_append, BitVec.toNat_ofNat, BitVec.toNat_ofNat, Nat.shiftLeft_eq]
  simp only [Nat.zero_mod, Nat.or_zero]
  omega

/-! ### Sums and differences modulo 2^32 (40_arith_logic.md R103, R105, R107) -/

theorem add_eq_ofNat (a b : Word) : a + b = BitVec.ofNat 32 (a.toNat + b.toNat) := by
  rw [BitVec.ofNat_add, BitVec.ofNat_toNat, BitVec.ofNat_toNat, BitVec.setWidth_eq, BitVec.setWidth_eq]

theorem sub_eq_ofInt (a b : Word) : a - b = BitVec.ofInt 32 (a.toNat - b.toNat) := by
  rw [Int.sub_eq_add_neg, BitVec.ofInt_add, BitVec.ofInt_neg, BitVec.sub_eq_add_neg]
  simp

theorem add_simm_eq_ofInt (a : Word) (imm : BitVec 16) : a + simm imm = BitVec.ofInt 32 (a.toNat + imm.toInt) := by
  rw [BitVec.ofInt_add, ← toInt_simm, BitVec.ofInt_toInt]
  simp

/-- Settles O10: each instruction retires its sum or difference. -/
theorem wrappingAddAndSubtract : Obligations.WrappingAddAndSubtract := fun _ _ _ _ _ =>
  ⟨runs_retire (.encoded rfl rfl) rfl (add_eq_ofNat ..), runs_retire (.encoded rfl rfl) rfl (sub_eq_ofInt ..),
    runs_retire (.encoded rfl rfl) rfl (add_simm_eq_ofInt ..)⟩

/-! ### The overflow test (40_arith_logic.md R100) -/

/-- Bits 32 and 31 of a 33-bit number differ just when it is no signed 32-bit number. -/
theorem overflows_eq_false_iff (r : BitVec 33) : overflows r = false ↔ -(2 ^ 31) ≤ r.toInt ∧ r.toInt < 2 ^ 31 := by
  have hlt := r.isLt
  rw [overflows, bne_eq_false_iff_eq, BitVec.getLsbD, BitVec.getLsbD, Nat.testBit_eq_decide_div_mod_eq,
    Nat.testBit_eq_decide_div_mod_eq, decide_eq_decide, BitVec.toInt_eq_toNat_cond]
  split <;> omega

theorem toInt_sum33 (a b : Word) : (sum33 a b).toInt = a.toInt + b.toInt := by
  have ha := a.le_toInt
  have ha' := a.toInt_lt
  have hb := b.le_toInt
  have hb' := b.toInt_lt
  rw [sum33, BitVec.toInt_add, BitVec.toInt_signExtend_of_le (by decide), BitVec.toInt_signExtend_of_le (by decide)]
  exact Int.bmod_eq_of_le (by omega) (by omega)

theorem toInt_diff33 (a b : Word) : (diff33 a b).toInt = a.toInt - b.toInt := by
  have ha := a.le_toInt
  have ha' := a.toInt_lt
  have hb := b.le_toInt
  have hb' := b.toInt_lt
  rw [diff33, BitVec.toInt_sub, BitVec.toInt_signExtend_of_le (by decide), BitVec.toInt_signExtend_of_le (by decide)]
  exact Int.bmod_eq_of_le (by omega) (by omega)

theorem extractLsb'_eq_ofInt_toInt (r : BitVec 33) : r.extractLsb' 0 32 = BitVec.ofInt 32 r.toInt := by
  apply BitVec.eq_of_toInt_eq
  rw [← BitVec.setWidth_eq_extractLsb' (by decide), BitVec.toInt_setWidth, BitVec.toInt_ofInt, BitVec.toInt_eq_toNat_bmod]
  exact (Int.bmod_bmod_of_dvd (by decide)).symm

/-- An instruction that ends in the overflow test of `r`, whose value is the exact result. -/
theorem checksOverflow_of_exec {w : Word} {i : Instr} {s : State} {rd : Reg} {r : BitVec 33} {v : Int}
    (hw : WordOf w i) (hx : exec i s = .next (s.retireChecked rd r)) (hv : r.toInt = v) : ChecksOverflow w i s rd v := by
  subst hv
  rw [ChecksOverflow, ← overflows_eq_false_iff]
  unfold State.retireChecked at hx
  refine ⟨fun hfits => ?_, fun hover => ?_⟩
  · rw [if_neg (by simp [hfits])] at hx
    exact runs_retire hw hx (extractLsb'_eq_ofInt_toInt r)
  · rw [if_pos (by simpa using hover)] at hx
    exact runs_of_exec hw hx (endsFaulted_takeException s rfl)

/-- Settles O11: the 33-bit sum or difference is the exact one. -/
theorem trappingAddAndSubtract : Obligations.TrappingAddAndSubtract := fun _ _ _ _ imm =>
  ⟨checksOverflow_of_exec (.encoded rfl rfl) rfl (toInt_sum33 ..),
    checksOverflow_of_exec (.encoded rfl rfl) rfl (toInt_diff33 ..),
    checksOverflow_of_exec (.encoded rfl rfl) rfl ((toInt_sum33 ..).trans (congrArg _ (toInt_simm imm)))⟩

/-! ### Logic (40_arith_logic.md R108 to R115) -/

/-- Settles O12: each instruction retires its result; `lui`'s reserved field is O6's. -/
theorem logicalResults : Obligations.LogicalResults := by
  intro s rd rs rt imm
  refine ⟨?and, ?or, ?xor, ?nor, ?andi, ?ori, ?xori, ?lui, fun hrs => ?luiRefused⟩
  case luiRefused =>
    obtain ⟨-, hlui, -⟩ := reservedFieldsMustBeZero (iType 0x0F#6 rs rt imm)
    exact hlui (opOf_iType ..) (by rwa [rsOf_iType])
  case lui => exact runs_retire (.encoded rfl rfl) rfl (uimm_eq_ofNat imm)
  case andi | ori | xori => exact runs_retire (.encoded rfl rfl) rfl (by rw [zimm_eq_ofNat])
  all_goals exact runs_retire (.encoded rfl rfl) rfl rfl

/-! ### Comparisons (40_arith_logic.md R116 to R119) -/

theorem boolWord_decide (p : Prop) [Decidable p] : boolWord (decide p) = if p then 1#32 else 0#32 := by
  by_cases h : p <;> simp [boolWord, h]

/-- Settles O13: each instruction retires the word of its comparison. -/
theorem setOnLessThanResults : Obligations.SetOnLessThanResults := by
  intro s rd rs rt imm
  refine ⟨?slt, ?sltu, ?slti, ?sltiu⟩
  case slti => exact runs_retire (.encoded rfl rfl) rfl (by rw [ltSigned, boolWord_decide, toInt_simm])
  all_goals exact runs_retire (.encoded rfl rfl) rfl (boolWord_decide _)

/-! ### Shifts (40_arith_logic.md R120 to R125) -/

/-- A variable shift counts the low five bits only. -/
theorem varShift_eq_mod (s : State) (rs : Reg) : s.varShift rs = (s.reg rs).toNat % 32 := by
  simp [State.varShift]

section
variable {w : Word} {i : Instr} {s : State} {rd : Reg} {x : Word} {n : Nat} (hw : WordOf w i)
include hw

theorem runs_shiftLeft (hx : exec i s = .next (s.retire rd (x <<< n))) : Runs w i s (fun t =>
    ∃ v : Word, RegEffect s t rd v ∧ ∀ k < 32, v.getLsbD k = (decide (n ≤ k) && x.getLsbD (k - n))) := by
  refine runs_of_exec hw hx ⟨_, regEffect_retire s rd _, fun k hk => ?_⟩
  rw [BitVec.getLsbD_shiftLeft, decide_eq_true hk, Bool.true_and, ← decide_not]
  simp only [Nat.not_lt]

theorem runs_ushiftRight (hx : exec i s = .next (s.retire rd (x >>> n))) : Runs w i s (fun t =>
    ∃ v : Word, RegEffect s t rd v ∧ ∀ k < 32, v.getLsbD k = x.getLsbD (k + n)) := by
  refine runs_of_exec hw hx ⟨_, regEffect_retire s rd _, fun k _ => ?_⟩
  rw [BitVec.getLsbD_ushiftRight, Nat.add_comm]

theorem runs_sshiftRight (hx : exec i s = .next (s.retire rd (x.sshiftRight n))) : Runs w i s (fun t =>
    ∃ v : Word, RegEffect s t rd v ∧ ∀ k < 32, v.getLsbD k = x.getLsbD (min (k + n) 31)) := by
  refine runs_of_exec hw hx ⟨_, regEffect_retire s rd _, fun k hk => ?_⟩
  rw [BitVec.getLsbD_sshiftRight, Nat.add_comm n k]
  by_cases h : k + n < 32
  · simp [hk, h, Nat.min_eq_left (Nat.le_of_lt_succ h)]
  · simp [hk, h, Nat.min_eq_right (by omega : 31 ≤ k + n), BitVec.msb_eq_getLsbD_last]

end

/-- Settles O14: each instruction retires a shift by its amount; the reserved fields are O6's. -/
theorem shiftResults : Obligations.ShiftResults := by
  intro s rd rs rt sa
  refine ⟨fun hne => ?sll, ?srl, ?sra, ?sllv, ?srlv, ?srav, ?zero, fun hrs => ?srlRefused, fun hsa => ?srlvRefused⟩
  case sll => exact runs_shiftLeft (.encoded (wellFormed_sll_iff.2 (by simpa [and_assoc] using hne)) rfl) rfl
  case srl => exact runs_ushiftRight (.encoded rfl rfl) rfl
  case sra => exact runs_sshiftRight (.encoded rfl rfl) rfl
  case sllv => rw [← varShift_eq_mod]; exact runs_shiftLeft (.encoded rfl rfl) rfl
  case srlv => rw [← varShift_eq_mod]; exact runs_ushiftRight (.encoded rfl rfl) rfl
  case srav => rw [← varShift_eq_mod]; exact runs_sshiftRight (.encoded rfl rfl) rfl
  case zero => decide
  case srlRefused =>
    obtain ⟨hshift, -⟩ := reservedFieldsMustBeZero (rType 0#6 rs rt rd sa 0x02#6)
    exact hshift (opOf_rType ..) (by simp) (by rwa [rsOf_rType])
  case srlvRefused =>
    obtain ⟨-, -, hreserved, -⟩ := reservedFieldsMustBeZero (rType 0#6 rs rt rd sa 0x06#6)
    exact hreserved (opOf_rType ..) (by simp) (by rwa [saOf_rType])

/-! ### Conditional moves and `nop` (40_arith_logic.md R126, R127, R130) -/

/-- Settles O15: the two branches of each conditional move. -/
theorem conditionalMovesAndNop : Obligations.ConditionalMovesAndNop := by
  intro s rd rs rt
  refine ⟨fun h => ?_, fun h => ?_, fun h => ?_, fun h => ?_, runs_seq (.encoded rfl rfl) rfl⟩
  · exact runs_retire (.encoded rfl rfl) (congrArg Host.Outcome.next (if_pos h)) rfl
  · exact runs_seq (.encoded rfl rfl) (congrArg Host.Outcome.next (if_neg h))
  · exact runs_retire (.encoded rfl rfl) (congrArg Host.Outcome.next (if_pos h)) rfl
  · exact runs_seq (.encoded rfl rfl) (congrArg Host.Outcome.next (if_neg (not_not.2 h)))

/-! ### Leading bits (40_arith_logic.md R128, R129) -/

theorem leadingZeros_le (v : Word) (n : Nat) : leadingZeros v n ≤ n := by
  induction n with
  | zero => rfl
  | succ n ih =>
    rw [leadingZeros]
    split <;> omega

theorem getLsbD_of_lt_leadingZeros {v : Word} {n k : Nat} (hk : k < leadingZeros v n) : v.getLsbD (n - 1 - k) = false := by
  induction n generalizing k with
  | zero => cases hk
  | succ n ih =>
    rw [leadingZeros] at hk
    split at hk
    case isTrue => cases hk
    case isFalse h =>
      cases k with
      | zero => simpa using h
      | succ k =>
        rw [show n + 1 - 1 - (k + 1) = n - 1 - k by omega]
        exact ih (by omega)

theorem getLsbD_leadingZeros {v : Word} {n : Nat} (h : leadingZeros v n < n) :
    v.getLsbD (n - 1 - leadingZeros v n) = true := by
  induction n with
  | zero => cases h
  | succ n ih =>
    rw [leadingZeros] at h ⊢
    split
    case isTrue hbit => exact hbit
    case isFalse hbit =>
      rw [if_neg hbit] at h
      rw [show n + 1 - 1 - (leadingZeros v n + 1) = n - 1 - leadingZeros v n by omega]
      exact ih (by omega)

/-- A bit of the complement is the opposite of the word's. -/
theorem getLsbD_not_eq_iff (v : Word) (k : Nat) (b : Bool) : (~~~v).getLsbD (31 - k) = b ↔ v.getLsbD (31 - k) = !b := by
  have hk : 31 - k < 32 := by omega
  rw [BitVec.getLsbD_not, decide_eq_true hk, Bool.true_and]
  exact Bool.not_eq_eq_eq_not

/-- Settles O16: the leading ones are the leading zeros of the complement. -/
theorem leadingBitCounts : Obligations.LeadingBitCounts := by
  intro s rd rs rt
  constructor
  · exact runs_of_exec (.clz rd rs rt rfl) rfl ⟨_, leadingZeros_le .., regEffect_retire s rd _,
      fun k hk => getLsbD_of_lt_leadingZeros hk, fun h => getLsbD_leadingZeros h⟩
  · exact runs_of_exec (.clo rd rs rt rfl) rfl ⟨_, leadingZeros_le .., regEffect_retire s rd _,
      fun k hk => (getLsbD_not_eq_iff ..).1 (getLsbD_of_lt_leadingZeros hk),
      fun h => (getLsbD_not_eq_iff ..).1 (getLsbD_leadingZeros h)⟩

end Sys2Proof.Machine
end

section
/-! Multiply, divide and the accumulator (41_muldiv.md). Each of these instructions but the two moves from HI and LO ends in
`State.retireHiLo`, some after a draw. The products are exact 64-bit numbers (`signedProduct_eq_ofInt`,
`unsignedProduct_eq_ofInt`), and the quotients and remainders those of `BitVec` except where
the quotient does not fit 32 bits. -/

namespace Sys2Proof.Machine

/-! ### A word that writes HI and LO -/

section
variable {w : Word} {i : Instr} {s : State} {hi lo : Word} {P : Word → Word → Prop}

theorem runs_retireHiLo (hw : WordOf w i) (hx : exec i s = .next (s.retireHiLo hi lo)) (h : P hi lo) :
    Runs w i s (fun t => HiLoEffect s t P) :=
  runs_of_exec hw hx (hiLoEffect_retireHiLo s h)

/-- `HI || LO` after the accumulator is written is the number written (41_muldiv.md R140). -/
theorem runs_retireAcc {p : DWord} (hw : WordOf w i) (hx : exec i s = .next (s.retireAcc p))
    (h : ∀ hi lo : Word, hi ++ lo = p → P hi lo) : Runs w i s (fun t => HiLoEffect s t P) :=
  runs_retireHiLo hw hx (h _ _ BitVec.extractLsb'_append_extractLsb')

end

/-! ### The moves (41_muldiv.md R145 to R148) -/

/-- Settles O21: each move retires the register or the accumulator it names. -/
theorem hiLoMoves : Obligations.HiLoMoves := fun _ _ _ =>
  ⟨runs_retire (.encoded rfl rfl) rfl rfl, runs_retire (.encoded rfl rfl) rfl rfl,
    runs_retireHiLo (.encoded rfl rfl) rfl ⟨rfl, rfl⟩, runs_retireHiLo (.encoded rfl rfl) rfl ⟨rfl, rfl⟩⟩

/-! ### The exact product (41_muldiv.md R141, R142) -/

theorem signedProduct_eq_ofInt (a b : Word) : signedProduct a b = BitVec.ofInt 64 (a.toInt * b.toInt) :=
  (BitVec.ofInt_mul ..).symm

theorem unsignedProduct_eq_ofInt (a b : Word) : unsignedProduct a b = BitVec.ofInt 64 (a.toNat * b.toNat) := by
  rw [BitVec.ofInt_mul, BitVec.ofInt_natCast, BitVec.ofInt_natCast, BitVec.ofNat_toNat, BitVec.ofNat_toNat, unsignedProduct]

theorem toInt_signedProduct (a b : Word) : (signedProduct a b).toInt = a.toInt * b.toInt := by
  have hlow : -2 ^ (32 * 2 - 2) ≤ a.toInt * b.toInt := BitVec.le_toInt_mul_toInt
  have hhigh : a.toInt * b.toInt ≤ 2 ^ (32 * 2 - 2) := BitVec.toInt_mul_toInt_le
  rw [signedProduct_eq_ofInt, BitVec.toInt_ofInt]
  exact Int.bmod_eq_of_le (by omega) (by omega)

theorem toNat_unsignedProduct (a b : Word) : (unsignedProduct a b).toNat = a.toNat * b.toNat := by
  have hlt : a.toNat * b.toNat < 2 ^ 32 * 2 ^ 32 := Nat.mul_lt_mul'' a.isLt b.isLt
  rw [unsignedProduct, BitVec.toNat_mul, BitVec.toNat_setWidth_of_le (by decide), BitVec.toNat_setWidth_of_le (by decide)]
  exact Nat.mod_eq_of_lt hlt

/-- Settles O17: the accumulator is the exact product. -/
theorem multiplyResults : Obligations.MultiplyResults := fun _ _ _ =>
  ⟨runs_retireAcc (.encoded rfl rfl) rfl fun _ _ h => h ▸ toInt_signedProduct ..,
    runs_retireAcc (.encoded rfl rfl) rfl fun _ _ h => h ▸ toNat_unsignedProduct ..⟩

/-! ### The accumulator plus or minus the product (41_muldiv.md R150 to R153) -/

/-- A sum with a number known modulo 2^64. -/
theorem toNat_add_ofInt (a : DWord) (v : Int) : ((a + BitVec.ofInt 64 v).toNat : Int) = (a.toNat + v) % 2 ^ 64 := by
  rw [BitVec.toNat_add, BitVec.toNat_ofInt]
  omega

/-- A difference with a number known modulo 2^64. -/
theorem toNat_sub_ofInt (a : DWord) (v : Int) : ((a - BitVec.ofInt 64 v).toNat : Int) = (a.toNat - v) % 2 ^ 64 := by
  rw [BitVec.sub_eq_add_neg, ← BitVec.ofInt_neg, toNat_add_ofInt, Int.sub_eq_add_neg]

section
variable {w : Word} {i : Instr} {s : State} {p : DWord} {v : Int} (hw : WordOf w i) (hp : p = BitVec.ofInt 64 v)
include hw hp

theorem runs_accAdd (hx : exec i s = .next (s.retireAcc (s.acc + p))) : Runs w i s (fun t => HiLoEffect s t (fun hi lo =>
    ((hi ++ lo).toNat : Int) = ((s.hi ++ s.lo).toNat + v) % 2 ^ 64)) := by
  subst hp
  exact runs_retireAcc hw hx fun _ _ h => by rw [h, toNat_add_ofInt, State.acc]

theorem runs_accSub (hx : exec i s = .next (s.retireAcc (s.acc - p))) : Runs w i s (fun t => HiLoEffect s t (fun hi lo =>
    ((hi ++ lo).toNat : Int) = ((s.hi ++ s.lo).toNat - v) % 2 ^ 64)) := by
  subst hp
  exact runs_retireAcc hw hx fun _ _ h => by rw [h, toNat_sub_ofInt, State.acc]

end

/-- Settles O18: each instruction adds or subtracts its product. -/
theorem accumulateResults : Obligations.AccumulateResults := fun _ _ _ =>
  ⟨runs_accAdd (.encoded rfl rfl) (signedProduct_eq_ofInt ..) rfl,
    runs_accAdd (.encoded rfl rfl) (unsignedProduct_eq_ofInt ..) rfl,
    runs_accSub (.encoded rfl rfl) (signedProduct_eq_ofInt ..) rfl,
    runs_accSub (.encoded rfl rfl) (unsignedProduct_eq_ofInt ..) rfl⟩

/-! ### Quotient and remainder (41_muldiv.md R140, R143, R144) -/

/-- Outside the one quotient that does not fit, the quotient and the remainder are those of signed division. -/
theorem signedDivide_eq {a b : Word} (h : ¬(a = 0x80000000#32 ∧ b = 0xFFFFFFFF#32)) :
    signedDivide a b = (a.sdiv b, a.srem b) := by
  have hq : (a.sdiv b).toInt = a.toInt.tdiv b.toInt := BitVec.toInt_sdiv_of_ne_or_ne a b (not_and_or.1 h)
  rw [signedDivide, if_neg h, Int.mul_comm, ← Int.tmod_def, ← hq, ← BitVec.toInt_srem, BitVec.ofInt_toInt,
    BitVec.ofInt_toInt]

theorem unsignedDivide_eq (a b : Word) : unsignedDivide a b = (a / b, a % b) := by
  simp [unsignedDivide, ← BitVec.toNat_udiv, ← BitVec.toNat_umod]

/-- A remainder other than zero has the sign of the dividend. -/
theorem tmod_neg_iff {a b : Int} (h : a.tmod b ≠ 0) : a.tmod b < 0 ↔ a < 0 := by
  rw [← Int.sign_eq_neg_one_iff_neg, ← Int.sign_eq_neg_one_iff_neg, Int.sign_tmod,
    if_neg fun hdvd => h (Int.tmod_eq_zero_of_dvd hdvd)]

theorem toInt_sdiv_srem {a b : Word} (hb : b ≠ 0#32) (h : ¬(a = 0x80000000#32 ∧ b = 0xFFFFFFFF#32)) :
    a.toInt = (a.sdiv b).toInt * b.toInt + (a.srem b).toInt ∧ (a.srem b).toInt.natAbs < b.toInt.natAbs ∧
      (a.srem b ≠ 0#32 → ((a.srem b).toInt < 0 ↔ a.toInt < 0)) := by
  refine ⟨?quotient, ?smaller, fun hr => ?sign⟩
  case quotient =>
    rw [BitVec.toInt_sdiv_of_ne_or_ne a b (not_and_or.1 h), BitVec.toInt_srem, Int.tdiv_mul_add_tmod]
  case smaller =>
    rw [BitVec.toInt_srem, Int.natAbs_tmod]
    exact Nat.mod_lt _ (Int.natAbs_pos.2 (BitVec.toInt_ne.2 hb))
  case sign =>
    have hr0 : (a.srem b).toInt ≠ 0 := BitVec.toInt_ne.2 hr
    rw [BitVec.toInt_srem] at hr0 ⊢
    exact tmod_neg_iff hr0

theorem toNat_udiv_umod {a b : Word} (hb : b ≠ 0#32) :
    a.toNat = (a / b).toNat * b.toNat + (a % b).toNat ∧ (a % b).toNat < b.toNat := by
  have hpos : 0 < b.toNat := Nat.pos_of_ne_zero fun h0 => hb (BitVec.eq_of_toNat_eq h0)
  rw [BitVec.toNat_udiv, BitVec.toNat_umod]
  exact ⟨(Nat.div_add_mod' ..).symm, Nat.mod_lt _ hpos⟩

/-- Settles O19: division by a divisor other than zero retires the quotient and the remainder. -/
theorem divideResults : Obligations.DivideResults := by
  intro s rs rt hne
  refine ⟨fun hfits => ?div, fun ha hb => ?wraps, ?divu⟩
  case div =>
    exact runs_retireHiLo (.encoded rfl rfl) (congrArg Host.Outcome.next (if_neg hne))
      (by rw [signedDivide_eq hfits]; exact toInt_sdiv_srem hne hfits)
  case wraps =>
    exact runs_retireHiLo (.encoded rfl rfl) (congrArg Host.Outcome.next (if_neg hne))
      (by rw [signedDivide, if_pos ⟨ha, hb⟩]; exact ⟨rfl, rfl⟩)
  case divu =>
    exact runs_retireHiLo (.encoded rfl rfl) (congrArg Host.Outcome.next (if_neg hne))
      (by rw [unsignedDivide_eq]; exact toNat_udiv_umod hne)

/-! ### Draws (41_muldiv.md R140, R149) -/

/-- One draw is used up, one register and HI and LO are written, and `Seq`. -/
theorem drawn_retireHiLo (s : State) (rd : Reg) (v hi lo : Word) :
    RegWritten s ((s.draw.2.setReg rd v).retireHiLo hi lo) rd v ∧
      DrawnHiLo s ((s.draw.2.setReg rd v).retireHiLo hi lo) hi lo := by
  unfold State.retireHiLo State.draw
  refine ⟨fun r => ?_, by simp, by simp, by simp [SameCp0], fun a => by simp, by simp, by simp [SameHost], by simp [SameRun],
    by simp [SameConsole], by simp, by simp, advanced_seq (by simp) (by simp)⟩
  rw [reg_schedule]
  exact reg_setReg ..

theorem drawn_retireDiv0 (s : State) :
    SameRegs s s.retireDiv0 ∧ DrawnHiLo s s.retireDiv0 (Config.div0Hi s.drawCount) (Config.div0Lo s.drawCount) := by
  obtain ⟨hreg, hdrawn⟩ := drawn_retireHiLo s 0#5 0#32 (Config.div0Hi s.drawCount) (Config.div0Lo s.drawCount)
  rw [setReg_zero] at hreg hdrawn
  exact ⟨fun r => (hreg r).trans (by simp), hdrawn⟩

/-- The low word of a 64-bit number is the number modulo 2^32. -/
theorem extractLsb'_ofInt (v : Int) : (BitVec.ofInt 64 v).extractLsb' 0 32 = BitVec.ofInt 32 v := by
  apply BitVec.eq_of_toNat_eq
  rw [← BitVec.setWidth_eq_extractLsb' (by decide), BitVec.toNat_setWidth, BitVec.toNat_ofInt, BitVec.toNat_ofInt]
  omega

/-- Settles O20: each instruction retires HI and LO from its draw. -/
theorem drawnResults : Obligations.DrawnResults := by
  intro s rd rs rt
  refine ⟨fun hz => ?div, fun hz => ?divu, ?mul⟩
  case div | divu => exact runs_of_exec (.encoded rfl rfl) (congrArg Host.Outcome.next (if_pos hz)) (drawn_retireDiv0 s)
  case mul =>
    rw [← extractLsb'_ofInt, ← signedProduct_eq_ofInt]
    exact runs_of_exec (.encoded rfl rfl) rfl (drawn_retireHiLo s rd ..)

end Sys2Proof.Machine
end

section
/-! Loads and stores (42_loadstore.md). Each of these instructions ends in `State.finish` or `State.finishReg` of one checked
access: what a word that runs so does when the check holds and when it fails is said once (`runs_access`), and a clause about
an instruction adds which bytes move. -/

namespace Sys2Proof.Machine

/-! ### A word that loads or stores (20_memory.md R57, R58) -/

section
variable {w : Word} {i : Instr} {s t : State} {rd : Reg} {v chk a : Word} {n : Width} {P : State → Prop} (hw : WordOf w i)
include hw

/-- `K` ends the instruction with what the access gave: its value when the check `c` holds, else its exception, which is
fatal. -/
theorem runs_access {α : Type} {K : Except Exc α → State} {c : Bool} {y : α} {e : Exc}
    (hK : K (.error e) = s.takeException e) (he : excDeliverable e = false)
    (hx : exec i s = .next (K (if c then .ok y else .error e))) (hP : P (K (.ok y))) :
    (c = true → Runs w i s P) ∧
      (c = false → Runs w i s (fun t => EndsFaulted s t (excReason e) (excKind e) (excCode e) (excBadAddr e))) := by
  cases c with
  | true => exact ⟨fun _ => runs_of_exec hw hx hP, nofun⟩
  | false => exact ⟨nofun, fun _ => runs_of_exec hw hx (hK ▸ endsFaulted_takeException s he)⟩

theorem checksLoad_of_finishReg {x : Except Exc Word} (hx : exec i s = .next (s.finishReg rd x))
    (hacc : x = if s.check chk n .load then .ok v else .error (.addressErrorLoad a)) (hP : P (s.retire rd v)) :
    ChecksLoad w i s chk n a P := by
  subst hacc
  exact runs_access hw (K := s.finishReg rd) rfl rfl hx hP

theorem checksLoad_of_finish {x : Except Exc State} (hx : exec i s = .next (s.finish x))
    (hacc : x = if s.check chk n .load then .ok t else .error (.addressErrorLoad a)) (hP : P (t.schedule .seq)) :
    ChecksLoad w i s chk n a P := by
  subst hacc
  exact runs_access hw (K := s.finish) rfl rfl hx hP

theorem checksStore_of_finish {x : Except Exc State} (hx : exec i s = .next (s.finish x))
    (hacc : x = if s.check chk n .store then .ok t else .error (.addressErrorStore a)) (hP : P (t.schedule .seq)) :
    ChecksStore w i s chk n a P := by
  subst hacc
  exact runs_access hw (K := s.finish) rfl rfl hx hP

end

/-- Work on the value an access gave leaves its check and its exception as they are. -/
theorem map_access {α β : Type} (f : α → β) (c : Bool) (v : α) (e : Exc) :
    (if c then Except.ok v else .error e).map f = if c then .ok (f v) else .error e := by
  cases c <;> rfl

/-! ### Extension of a loaded value (42_loadstore.md R160) -/

theorem extractLsb'_setWidth_self {n m : Nat} (x : BitVec n) (h : n ≤ m) : (x.setWidth m).extractLsb' 0 n = x :=
  (BitVec.extractLsb'_setWidth_of_le (by omega)).trans BitVec.extractLsb'_eq_self

theorem sextByte_load (m : Memory) (a : Word) :
    sextByte (Memory.load m a .byte) = (Memory.byteAt m a).signExtend 32 :=
  congrArg (BitVec.signExtend 32) (extractLsb'_setWidth_self _ (by decide))

theorem sextHalf_load (m : Memory) (a : Word) :
    sextHalf (Memory.load m a .half) = (Memory.byteAt m (a + 1) ++ Memory.byteAt m a).signExtend 32 :=
  congrArg (BitVec.signExtend 32) (extractLsb'_setWidth_self (n := 16) _ (by decide))

theorem load_byte_eq_ofNat (m : Memory) (a : Word) :
    Memory.load m a .byte = BitVec.ofNat 32 (Memory.byteAt m a).toNat :=
  (BitVec.ofNat_toNat ..).symm

theorem load_half_eq_ofNat (m : Memory) (a : Word) : Memory.load m a .half =
    BitVec.ofNat 32 ((Memory.byteAt m a).toNat + 2 ^ 8 * (Memory.byteAt m (a + 1)).toNat) := by
  rw [Memory.load, ← BitVec.ofNat_toNat, BitVec.toNat_append, ← Nat.shiftLeft_add_eq_or_of_lt (BitVec.isLt _),
    Nat.shiftLeft_eq, Nat.mul_comm, Nat.add_comm]

/-- Settles O22: each load retires its bytes extended. -/
theorem loadResults : Obligations.LoadResults := by
  intro s rt rs imm ea hea
  obtain rfl : ea = s.ea rs imm := hea
  refine ⟨?lb, ?lbu, ?lh, ?lhu, ?lw⟩
  case lb =>
    rw [← sextByte_load]
    exact checksLoad_of_finishReg (.encoded rfl rfl) rfl (map_access ..) (regEffect_retire ..)
  case lbu =>
    rw [← load_byte_eq_ofNat]
    exact checksLoad_of_finishReg (.encoded rfl rfl) rfl rfl (regEffect_retire ..)
  case lh =>
    rw [← sextHalf_load]
    exact checksLoad_of_finishReg (.encoded rfl rfl) rfl (map_access ..) (regEffect_retire ..)
  case lhu =>
    rw [← load_half_eq_ofNat]
    exact checksLoad_of_finishReg (.encoded rfl rfl) rfl rfl (regEffect_retire ..)
  case lw =>
    exact checksLoad_of_finishReg (.encoded rfl rfl) rfl rfl
      ⟨_, regEffect_retire .., fun _ hk => byteOf_load_word _ _ hk⟩

/-! ### Part of an aligned word (20_memory.md R60, 42_loadstore.md R166, R167) -/

theorem byteIndex_eq_mod (a : Word) : byteIndex a = a.toNat % 4 := by
  simp [byteIndex]

theorem wordBase_eq_ofNat (a : Word) : wordBase a = BitVec.ofNat 32 (a.toNat - byteIndex a) := by
  obtain ⟨hadd, -⟩ := wordBase_add a
  have hle : byteIndex a ≤ a.toNat := byteIndex_eq_mod a ▸ Nat.mod_le ..
  apply add_right_cancel (b := BitVec.ofNat 32 (byteIndex a))
  rw [hadd, BitVec.ofNat_add_ofNat, Nat.sub_add_cancel hle, BitVec.ofNat_toNat, BitVec.setWidth_eq]

/-- The byte index and the aligned word's address as the statements give them. -/
theorem eq_byteIndex_wordBase {a w : Word} {b : Nat} (hb : b = a.toNat % 4) (hw : w = BitVec.ofNat 32 (a.toNat - b)) :
    b = byteIndex a ∧ w = wordBase a := by
  rw [← byteIndex_eq_mod] at hb
  subst hb
  exact ⟨rfl, hw.trans (wordBase_eq_ofNat a).symm⟩

/-- The address and an offset from it, from the aligned word's address. -/
theorem wordBase_add_offset (a : Word) (k : Nat) : wordBase a + BitVec.ofNat 32 (k + byteIndex a) = a + BitVec.ofNat 32 k := by
  obtain ⟨hadd, -⟩ := wordBase_add a
  rw [Nat.add_comm, ← BitVec.ofNat_add_ofNat, ← BitVec.add_assoc, hadd]

/-- The bits below `m`. -/
theorem getLsbD_lowMask {m : Nat} (hm : m ≤ 32) (j : Nat) : (BitVec.ofNat 32 (2 ^ m - 1)).getLsbD j = decide (j < m) := by
  rw [BitVec.getLsbD_ofNat, Nat.testBit_two_pow_sub_one]
  by_cases h : j < m
  · simp [h, Nat.lt_of_lt_of_le h hm]
  · simp [h]

/-- `lwl` replaces the top `b + 1` bytes. -/
theorem byteOf_mergeLeft (word old : Word) {b k : Nat} (hb : b < 4) (hk : k < 4) :
    byteOf (mergeLeft word old b) k = if 3 - b ≤ k then byteOf word (k - (3 - b)) else byteOf old k := by
  ext i hi
  have hmask : (0x00FFFFFF#32).getLsbD (8 * b + (8 * k + i)) = decide (k < 3 - b) :=
    (getLsbD_lowMask (m := 24) (by decide) _).trans (decide_eq_decide.2 (by omega))
  simp only [byteOf, mergeLeft, BitVec.getElem_extractLsb', BitVec.getLsbD_or, BitVec.getLsbD_and,
    BitVec.getLsbD_shiftLeft, BitVec.getLsbD_ushiftRight, hmask]
  by_cases h : 3 - b ≤ k
  · simp [h, BitVec.getElem_extractLsb', show 8 * k + i < 32 by omega, show ¬8 * k + i < 8 * (3 - b) by omega,
      show 8 * k + i - 8 * (3 - b) = 8 * (k - (3 - b)) + i by omega]
  · simp [h, BitVec.getElem_extractLsb', show 8 * k + i < 8 * (3 - b) by omega, Nat.lt_of_not_le h]

/-- `lwr` replaces the bottom `4 - b` bytes. -/
theorem byteOf_mergeRight (word old : Word) {b k : Nat} (hb : b < 4) (hk : k < 4) :
    byteOf (mergeRight word old b) k = if k ≤ 3 - b then byteOf word (k + b) else byteOf old k := by
  ext i hi
  have hmask : (0xFFFFFFFF#32).getLsbD (8 * b + (8 * k + i)) = decide (k ≤ 3 - b) :=
    (getLsbD_lowMask (m := 32) (by decide) _).trans (decide_eq_decide.2 (by omega))
  simp only [byteOf, mergeRight, BitVec.getElem_extractLsb', BitVec.getLsbD_or, BitVec.getLsbD_and,
    BitVec.getLsbD_not, BitVec.getLsbD_ushiftRight, hmask, show 8 * k + i < 32 by omega]
  by_cases h : k ≤ 3 - b
  · simp [h, BitVec.getElem_extractLsb', show 8 * b + (8 * k + i) = 8 * (k + b) + i by omega]
  · simp [h, BitVec.getElem_extractLsb', BitVec.getLsbD_of_ge word _ (show 32 ≤ 8 * b + (8 * k + i) by omega)]

/-- Settles O23: the merged register byte by byte, over the bytes of the aligned word. -/
theorem partialLoadResults : Obligations.PartialLoadResults := by
  intro s rt rs imm ea w b hea hb hw
  obtain rfl : ea = s.ea rs imm := hea
  obtain ⟨rfl, rfl⟩ := eq_byteIndex_wordBase hb hw
  obtain ⟨-, hlt⟩ := wordBase_add (s.ea rs imm)
  constructor
  · refine checksLoad_of_finishReg (.encoded rfl rfl) rfl (map_access ..) ⟨_, regEffect_retire .., fun k hk => ?_⟩
    rw [← byteOf, byteOf_mergeLeft _ _ hlt hk, byteOf_load_word _ _ (by omega)]
    rfl
  · refine checksLoad_of_finishReg (.encoded rfl rfl) rfl (map_access ..) ⟨_, regEffect_retire .., fun k hk => ?_⟩
    rw [← byteOf, byteOf_mergeRight _ _ hlt hk, ← wordBase_add_offset]
    split
    case isTrue hlow => exact byteOf_load_word _ _ (by omega)
    case isFalse => rfl

/-! ### Stores (42_loadstore.md R168 to R172) -/

theorem length_lowBytes_le (v : Word) (n : Width) : (lowBytes v n).length ≤ 2 ^ 32 := by
  rw [length_lowBytes]
  cases n <;> decide

theorem length_leftBytes_le (v : Word) (b : Nat) : (leftBytes v b).length ≤ 2 ^ 32 :=
  (List.drop_sublist ..).length_le.trans (by decide : 4 ≤ 2 ^ 32)

theorem length_rightBytes_le (v : Word) (b : Nat) : (rightBytes v b).length ≤ 2 ^ 32 :=
  (List.take_sublist ..).length_le.trans (by decide : 4 ≤ 2 ^ 32)

/-- Settles O24: each store writes the low bytes of the register. -/
theorem storeResults : Obligations.StoreResults := by
  intro s rt rs imm ea hm hea
  obtain rfl : ea = s.ea rs imm := hea
  exact ⟨checksStore_of_finish (.encoded rfl rfl) rfl rfl (storeEffect_storeBytes s hm _ _ (length_lowBytes_le ..)),
    checksStore_of_finish (.encoded rfl rfl) rfl rfl (storeEffect_storeBytes s hm _ _ (length_lowBytes_le ..)),
    checksStore_of_finish (.encoded rfl rfl) rfl rfl (storeEffect_storeBytes s hm _ _ (length_lowBytes_le ..))⟩

theorem leftBytes_eq_map (v : Word) {b : Nat} (hb : b < 4) :
    leftBytes v b = (List.range (b + 1)).map (fun i => v.extractLsb' (8 * (3 - b + i)) 8) := by
  interval_cases b <;> rfl

theorem rightBytes_eq_map (v : Word) {b : Nat} (hb : b < 4) :
    rightBytes v b = (List.range (4 - b)).map (fun i => v.extractLsb' (8 * i) 8) := by
  interval_cases b <;> rfl

/-- Settles O25: each store writes its part of the register. -/
theorem partialStoreResults : Obligations.PartialStoreResults := by
  intro s rt rs imm ea w b hm hea hb hw
  obtain rfl : ea = s.ea rs imm := hea
  obtain ⟨rfl, rfl⟩ := eq_byteIndex_wordBase hb hw
  obtain ⟨-, hlt⟩ := wordBase_add (s.ea rs imm)
  rw [← leftBytes_eq_map _ hlt, ← rightBytes_eq_map _ hlt]
  exact ⟨checksStore_of_finish (.encoded rfl rfl) rfl rfl
      (storeEffect_storeBytes s hm _ _ (length_leftBytes_le ..)),
    checksStore_of_finish (.encoded rfl rfl) rfl rfl
      (storeEffect_storeBytes s hm _ _ (length_rightBytes_le ..))⟩

/-! ### Linked load and store (42_loadstore.md R173, R174) -/

/-- A store, a register write, LLbit and `Seq`. -/
theorem linkedEffect_seq {s : State} (hm : Memory.wf s.mem = true) (b : Bool) (rd : Reg) (v a : Word) (bs : List Byte)
    (hlen : bs.length ≤ 2 ^ 32) : LinkedEffect s
      ({ ({ s with mem := Memory.storeBytes s.mem a bs }.setReg rd v) with llBit := b }.schedule .seq) b rd v a bs := by
  refine ⟨fun r => ?_, by simp [SameHiLo], by simp [SameCp0], bytesWritten_storeBytes hm a bs hlen (by simp), by simp, ?_,
    advanced_seq (by simp) (by simp)⟩
  · rw [reg_schedule]
    exact reg_setReg ..
  · simp [SameRest, SameHost, SameRun, SameConsole]

/-- LLbit is written by `ll`, `sc` and `eret` only (10_state.md R32). -/
theorem exec_keeps_llBit {i : Instr} {s t : State} (hx : exec i s = .next t) (hi : i.writesLink = false) :
    t.llBit = s.llBit := by
  rcases exec_cases i s with ⟨b, e, h, hans, -, -⟩ | ⟨b, n, h, hwork, -⟩ <;> cases hx.symm.trans h
  · rw [takeException_llBit, hans]
  · rw [schedule_llBit, hwork.link hi]

/-- Settles O26: `ll` and the two cases of `sc` by `linkedEffect_seq`, the other instructions by `exec_cases`. -/
theorem linkedLoadAndStore : Obligations.LinkedLoadAndStore := by
  intro s rt rs imm ea hm hea
  obtain rfl : ea = s.ea rs imm := hea
  refine ⟨?ll, ?sc, fun i t => exec_keeps_llBit⟩
  case ll =>
    exact checksLoad_of_finish (.encoded rfl rfl) rfl (map_access ..)
      ⟨_, linkedEffect_seq hm true rt _ _ [] (by decide), fun _ hk => byteOf_load_word _ _ hk⟩
  case sc =>
    refine checksStore_of_finish (.encoded rfl rfl) rfl (map_access ..) ⟨fun hset => ?_, fun hclear => ?_⟩
    · rw [if_pos hset]
      exact linkedEffect_seq hm false rt _ _ _ (length_lowBytes_le ..)
    · rw [if_neg (by simp [hclear])]
      exact linkedEffect_seq hm false rt _ _ [] (by decide)

end Sys2Proof.Machine
end

section
/-! Branches and jumps (43_control.md). Each of these instructions ends in `State.controlTransfer`, which runs it outside a
delay slot and refuses it in one. What a word that runs so does outside a slot is said once (`runs_transfer`, and
`runs_branchIf` for the two ends of a conditional branch); a clause about an instruction adds its condition or its target.
What every control transfer does in a slot (`exists_exec_eq_controlTransfer`), and what any instruction makes of a pending
transfer (`exec_of_pending`), is said of all of them at once. -/

namespace Sys2Proof.Machine

/-! ### The step that runs an instruction (43_control.md R180, 70_reset_and_hazards.md R284) -/

/-- The run loop executes an instruction unless the debugger's breakpoint at pc fires. -/
theorem step_of_running {s : State} (hcmd : s.commands = []) (hrun : s.runState = .running)
    (hbreak : s.pc ∈ s.breakpoints → s.skipBreak = true) : step s = { s with skipBreak := false }.instrStep := by
  have hgo : s.breakHere = false := by
    simpa [State.breakHere] using hbreak
  simp only [step, State.cycle, hcmd, hrun, hgo, Bool.false_eq_true, if_false]

/-- Settles O7: the fetch gives the word of the four bytes, which decodes to `i`. -/
theorem stepRunsDecodedInstruction : Obligations.StepRunsDecodedInstruction := by
  intro s i hcmd hrun hbreak hcheck hdef hdec
  rw [step_of_running hcmd hrun hbreak]
  exact instrStep_of_word (fetch_of_defined hcheck hdef) hdec

/-! ### A word that branches or jumps (43_control.md R182, R187) -/

theorem controlTransfer_of_pend_none {s : State} (hp : s.pend = none) (t : State) : s.controlTransfer t = t := by
  simp [State.controlTransfer, hp]

theorem controlTransfer_of_pend_isSome {s : State} (hp : s.pend.isSome = true) (t : State) :
    s.controlTransfer t = s.takeException .delaySlotControlTransfer :=
  if_pos hp

/-- The branch target as a number: relative to the delay slot, the offset counted in words. -/
theorem branchTarget_eq_ofInt (s : State) (imm : BitVec 16) :
    s.branchTarget imm = BitVec.ofInt 32 (s.pc.toNat + 4 + 4 * imm.toInt) := by
  have hshift : simm imm <<< 2 = BitVec.ofInt 32 (4 * imm.toInt) := by
    rw [BitVec.ofInt_mul, ← toInt_simm, BitVec.ofInt_toInt, BitVec.shiftLeft_eq_mul_twoPow, BitVec.mul_comm]
    rfl
  rw [State.branchTarget, hshift, BitVec.ofInt_add, BitVec.ofInt_add]
  simp

/-- The jump target as a number: in the 2^28-byte region of the delay slot. -/
theorem jumpTarget_eq_ofNat (s : State) (index : BitVec 26) :
    s.jumpTarget index = BitVec.ofNat 32 ((s.pc + 4).toNat / 2 ^ 28 * 2 ^ 28 + 4 * index.toNat) := by
  apply BitVec.eq_of_toNat_eq
  have hpc := (s.pc + 4).isLt
  have hindex := index.isLt
  rw [State.jumpTarget, BitVec.toNat_append, BitVec.toNat_append, ← Nat.shiftLeft_add_eq_or_of_lt hindex,
    BitVec.extractLsb'_toNat, BitVec.toNat_ofNat, BitVec.toNat_ofNat]
  simp only [Nat.zero_mod, Nat.or_zero, Nat.shiftLeft_eq, Nat.shiftRight_eq_div_pow]
  omega

section
variable {w : Word} {i : Instr} {s b : State} {P : State → Prop} {n : NextPc} {c : Bool} {imm : BitVec 16} {cond : Prop}
  (hp : s.pend = none) (hw : WordOf w i)
include hp hw

/-- `b` is the state after the link, if there is one. -/
theorem runs_transfer (hx : exec i s = .next (s.controlTransfer (b.schedule n))) (hP : P (b.schedule n)) : Runs w i s P :=
  runs_of_exec hw (hx.trans (congrArg _ (controlTransfer_of_pend_none hp _))) hP

/-- A conditional branch has the effect `E` of a transfer to its target or past its delay slot. -/
theorem runs_branchIf {E : Word → State → Prop}
    (hx : exec i s = .next (s.controlTransfer (b.schedule (s.branchIf c imm)))) (hc : c = true ↔ cond)
    (hE : ∀ target, E target (b.schedule (.branch target))) :
    (cond → Runs w i s (E (BitVec.ofInt 32 (s.pc.toNat + 4 + 4 * imm.toInt)))) ∧
      (¬cond → Runs w i s (E (s.pc + 8))) := by
  rw [← hc, ← branchTarget_eq_ofInt]
  cases c with
  | true => exact ⟨fun _ => runs_transfer hp hw hx (hE _), fun h => absurd rfl h⟩
  | false => exact ⟨nofun, fun _ => runs_transfer hp hw hx (hE _)⟩

theorem branchesTo_of_exec (hx : exec i s = .next (s.controlTransfer (s.schedule (s.branchIf c imm))))
    (hc : c = true ↔ cond) : BranchesTo w i s imm cond :=
  runs_branchIf hp hw (E := fun target t => TransferEffect s t target) hx hc (transferEffect_branch s)

theorem branchesLinking_of_exec
    (hx : exec i s = .next (s.controlTransfer ((s.setReg 31#5 s.afterSlot).schedule (s.branchIf c imm))))
    (hc : c = true ↔ cond) : BranchesLinking w i s imm cond :=
  runs_branchIf hp hw (E := fun target t => LinkEffect s t 31#5 target) hx hc (linkEffect_branch s 31#5)

end

/-! ### The branches (43_control.md R190 to R197) -/

theorem isNegative_iff (v : Word) : isNegative v = true ↔ v.toInt < 0 :=
  decide_eq_true_iff

theorem not_isNegative_iff (v : Word) : (!isNegative v) = true ↔ v.toInt ≥ 0 := by
  rw [Bool.not_eq_true', Bool.eq_false_iff, ne_eq, isNegative_iff, ge_iff_le, Int.not_lt]

/-- Settles O29: each branch's condition is its comparison; the reserved field is O6's. -/
theorem branches : Obligations.Branches := by
  intro s rs rt imm hp
  refine ⟨?beq, ?bne, ?blez, ?bgtz, ?bltz, ?bgez, ?bltzal, ?bgezal, fun hrt => ⟨?blezRefused, ?bgtzRefused⟩⟩
  case beq => exact branchesTo_of_exec hp (.encoded rfl rfl) rfl beq_iff_eq
  case bne => exact branchesTo_of_exec hp (.encoded rfl rfl) rfl bne_iff_ne
  case blez | bgtz => exact branchesTo_of_exec hp (.encoded rfl rfl) rfl decide_eq_true_iff
  case bltz => exact branchesTo_of_exec hp (.encoded rfl rfl) rfl (isNegative_iff _)
  case bgez => exact branchesTo_of_exec hp (.encoded rfl rfl) rfl (not_isNegative_iff _)
  case bltzal => exact branchesLinking_of_exec hp (.encoded rfl rfl) rfl (isNegative_iff _)
  case bgezal => exact branchesLinking_of_exec hp (.encoded rfl rfl) rfl (not_isNegative_iff _)
  case blezRefused | bgtzRefused =>
    obtain ⟨-, -, -, -, -, -, -, -, -, hreserved, -⟩ := reservedFieldsMustBeZero (iType _ rs rt imm)
    exact hreserved (by simp) (by rwa [rtOf_iType])

/-! ### The jumps (43_control.md R198 to R201) -/

/-- `jr`'s reserved bits 20:6 are its fields rt, rd and sa. -/
theorem refused_of_jr_low {w : Word} (hop : opOf w = 0x00#6) (hf : functOf w = 0x08#6) (hlow : w.extractLsb' 6 15 ≠ 0#15) :
    Refused w := by
  obtain ⟨-, -, -, -, hreserved, -⟩ := reservedFieldsMustBeZero w
  refine hreserved hop (by simp [hf]) ?_
  by_contra hzero
  simp only [not_or, not_not] at hzero
  obtain ⟨hrt, hrd, hsa⟩ := hzero
  have hfields : w.extractLsb' 6 15 = rtOf w ++ rdOf w ++ saOf w := by
    unfold rtOf rdOf saOf
    repeat rw [BitVec.extractLsb'_append_extractLsb'_eq_extractLsb' (by decide)]
  rw [hrt, hrd, hsa] at hfields
  exact hlow hfields

/-- Settles O30: each jump's target is the one named, read before the link is written. -/
theorem jumps : Obligations.Jumps := by
  intro s rd rs index hp
  rw [← jumpTarget_eq_ofNat]
  refine ⟨?j, ?jal, ?jr, ?jalr, fun low hlow => ?jrRefused⟩
  case j | jr => exact runs_transfer hp (.encoded rfl rfl) rfl (transferEffect_branch s _)
  case jal | jalr => exact runs_transfer hp (.encoded rfl rfl) rfl (linkEffect_branch s _ _)
  case jrRefused =>
    refine refused_of_jr_low ?_ ?_ ?_
    · unfold opOf
      repeat rw [BitVec.extractLsb'_append_eq_of_le (by decide)]
      exact BitVec.extractLsb'_eq_self
    · unfold functOf
      rw [BitVec.extractLsb'_append_eq_of_add_le (by decide)]
      exact BitVec.extractLsb'_eq_self
    · rw [BitVec.extractLsb'_append_eq_of_le (by decide), BitVec.extractLsb'_append_eq_of_add_le (by decide)]
      rwa [BitVec.extractLsb'_eq_self]

/-! ### In a delay slot (43_control.md R182) -/

theorem exists_exec_eq_controlTransfer {i : Instr} (hi : i.isControlTransfer = true) (s : State) :
    ∃ t, exec i s = .next (s.controlTransfer t) := by
  cases i
  case beq | bne | blez | bgtz | bltz | bgez | bltzal | bgezal | j | jal | jr | jalr | eret => exact ⟨_, rfl⟩
  all_goals cases hi

theorem excReason_eq_delaySlot_iff (e : Exc) :
    excReason e = .delaySlotControlTransfer ↔ e = .delaySlotControlTransfer := by
  cases e <;> simp [excReason]

/-- Only `DelaySlotControlTransfer` records the reason of that name. -/
theorem faultInfo_takeException (s : State) {e : Exc} (he : e ≠ .delaySlotControlTransfer) :
    (s.takeException e).faultInfo = s.faultInfo ∨
      ∃ fi, (s.takeException e).faultInfo = some fi ∧ fi.reason ≠ .delaySlotControlTransfer := by
  obtain ⟨-, -, r, hfi, hr⟩ | ⟨-, -, hfi⟩ := takeException_end s e
  · refine .inr ⟨_, hfi, ?_⟩
    obtain rfl | rfl := hr
    · exact fun h => he ((excReason_eq_delaySlot_iff e).1 h)
    · nofun
  · exact .inl hfi

/-- Settles O31: a control transfer raises in a slot; by `exec_cases` no other instruction raises that exception. -/
theorem controlTransferInDelaySlot : Obligations.ControlTransferInDelaySlot := by
  refine ⟨fun s i hp hi => ?transfer, fun s t i hi hx => ?other⟩
  case transfer =>
    obtain ⟨t, hx⟩ := exists_exec_eq_controlTransfer hi s
    rw [controlTransfer_of_pend_isSome hp] at hx
    exact ⟨_, hx, endsFaulted_takeException s rfl⟩
  case other =>
    obtain ⟨b, e, h, hans, he, -⟩ | ⟨b, n, h, hwork, -⟩ := exec_cases i s <;> cases hx.symm.trans h
    · have hfi : b.faultInfo = s.faultInfo := by rw [hans]
      rw [← hfi]
      exact faultInfo_takeException b fun h => by simp [he.2 h] at hi
    · rw [schedule_faultInfo, hwork.frame]
      exact .inl rfl

/-! ### The delay slot (43_control.md R180, R181, R187) -/

/-- Outside a delay slot a branch or jump only links and leaves its transfer pending. -/
theorem exec_transfer_of_pend_none {s : State} {i : Instr} (hp : s.pend = none) (hi : i.isControlTransfer = true)
    (he : i ≠ .eret) : ∃ t target, exec i s = .next t ∧ t.pc = s.pc + 4 ∧
      t.pend = some { target := target, branch := s.pc } := by
  obtain ⟨b, e, -, -, -, hslot⟩ | ⟨b, n, hx, hwork, hn⟩ := exec_cases i s
  · exact absurd (hslot hi) (by simp [hp])
  · obtain ⟨hpc, -⟩ := worked_fields hwork
    obtain ⟨hno, -⟩ | ⟨-, -, ⟨rfl, -⟩ | ⟨-, target, rfl⟩⟩ := hn
    · cases hi.symm.trans hno
    · exact absurd rfl he
    · exact ⟨_, target, hx, by rw [schedule_branch_pc, hpc], by rw [schedule_branch_pend, hpc]⟩

/-- What any instruction does in a delay slot: it raises, goes to the pending target, or ends the run. -/
theorem exec_of_pending {t : State} {p : Pending} (hp : t.pend = some p) (j : Instr) :
    ∃ u, exec j t = .next u ∧ u.pend = none ∧
      (u.pc = p.target ∨ (u.exl = true ∧ (u.pc = handlerAddr ∨ u.runState = .faulted)) ∨
        (u.runState = .halted ∧ u.pc = t.pc)) := by
  obtain ⟨b, e, hx, -, -, -⟩ | ⟨b, n, hx, hwork, hn⟩ := exec_cases j t
  · refine ⟨_, hx, by simp, .inr (.inl ⟨takeException_exl b e, ?_⟩)⟩
    obtain ⟨-, hrun, -⟩ | ⟨hpc, -⟩ := takeException_end b e
    · exact .inr hrun
    · exact .inl hpc
  · obtain ⟨hpc, hpend, -⟩ := worked_fields hwork
    obtain ⟨-, rfl | rfl⟩ | ⟨-, hnone, -⟩ := hn
    · exact ⟨_, hx, schedule_seq_pend b, .inl (by rw [schedule_seq_pc, hpend, hp])⟩
    · exact ⟨_, hx, schedule_halt_pend b _, .inr (.inr ⟨schedule_halt_runState b _, hpc⟩)⟩
    · cases hp.symm.trans hnone

/-- Settles O32: the transfer is pending after the branch, and one instruction ends it. -/
theorem delaySlotRunsOnce : Obligations.DelaySlotRunsOnce := by
  intro s i hp hi he
  obtain ⟨t, target, hx, hpc, hpend⟩ := exec_transfer_of_pend_none hp hi he
  exact ⟨t, target, hx, hpc, hpend, exec_of_pending hpend⟩

end Sys2Proof.Machine
end

section
/-! Break, the conditional traps, exception return and Coprocessor 0 access (44_system.md). Only `break` and the traps raise a
deliverable exception, and what taking one does is said once (`trapped_takeException`); a trap's clause adds that its test is
the comparison named (`checksTrap_of_exec`). -/

namespace Sys2Proof.Machine

/-! ### A deliverable exception (60_exceptions.md R244) -/

/-- An exception that ends the run, whatever the reason recorded (60_exceptions.md R246, R249). -/
theorem endsFaulted_of_fatal {s : State} {e : Exc} {reason : FaultReason}
    (h : s.takeException e = (s.recordException e).fatal e reason) :
    EndsFaulted s (s.takeException e) reason (excKind e) (excCode e) (excBadAddr e) := by
  refine ⟨recorded_takeException s e, notTouched_takeException s e, ?_, ?_, ?_⟩ <;> rw [h] <;> rfl

theorem excKind_excBadAddr_of_deliverable {e : Exc} (h : excDeliverable e = true) :
    excKind e = .unhandledException ∧ excBadAddr e = none := by
  cases e with
  | breakpoint | trap => exact ⟨rfl, rfl⟩
  | _ => cases h

theorem trapped_takeException (s : State) {e : Exc} (h : excDeliverable e = true) :
    Trapped s (s.takeException e) (excCode e) (excReason e) := by
  obtain ⟨hkind, hbad⟩ := excKind_excBadAddr_of_deliverable h
  unfold Trapped Delivered
  rw [← hkind, ← hbad]
  refine ⟨fun hexl hinst => ?delivered, fun hexl hinst => ?unhandled, fun hexl => ?nested⟩
  case delivered =>
    have hgo : s.takeException e = { s.recordException e with pc := handlerAddr } := by
      simp [State.takeException, h, hexl, hinst]
    refine ⟨recorded_takeException s e, notTouched_takeException s e, ?_, ?_, ?_⟩ <;> rw [hgo] <;> rfl
  case unhandled => exact endsFaulted_of_fatal (by simp [State.takeException, h, hexl, hinst])
  case nested => exact endsFaulted_of_fatal (by simp [State.takeException, h, hexl])

/-- Settles O39: `break` raises its exception in every state. -/
theorem breakException : Obligations.BreakException := fun s _ =>
  runs_of_exec (.encoded rfl rfl) rfl (trapped_takeException s rfl)

/-! ### The conditional traps (44_system.md R219) -/

theorem checksTrap_of_exec {w : Word} {i : Instr} {s : State} {c : Bool} {code : BitVec 10} {cond : Prop}
    (hw : WordOf w i) (hx : exec i s = .next (s.trapIf c code)) (hc : c = true ↔ cond) : ChecksTrap w i s cond := by
  rw [ChecksTrap, ← hc]
  cases c with
  | true => exact ⟨fun _ => runs_of_exec hw hx (trapped_takeException s (e := .trap code) rfl), fun h => absurd rfl h⟩
  | false => exact ⟨nofun, fun _ => runs_seq hw hx⟩

theorem ltSigned_iff {a b : Word} : ltSigned a b = true ↔ a.toInt < b.toInt := decide_eq_true_iff

theorem ltUnsigned_iff {a b : Word} : ltUnsigned a b = true ↔ a.toNat < b.toNat := decide_eq_true_iff

theorem not_ltSigned_iff {a b : Word} : (!ltSigned a b) = true ↔ a.toInt ≥ b.toInt := by
  simp [ltSigned]

theorem not_ltUnsigned_iff {a b : Word} : (!ltUnsigned a b) = true ↔ a.toNat ≥ b.toNat := by
  simp [ltUnsigned]

/-- Settles O40: each trap tests its comparison of the two registers. -/
theorem registerTraps : Obligations.RegisterTraps := fun _ _ _ _ =>
  ⟨checksTrap_of_exec (.encoded rfl rfl) rfl beq_iff_eq, checksTrap_of_exec (.encoded rfl rfl) rfl bne_iff_ne,
    checksTrap_of_exec (.encoded rfl rfl) rfl not_ltSigned_iff,
    checksTrap_of_exec (.encoded rfl rfl) rfl not_ltUnsigned_iff,
    checksTrap_of_exec (.encoded rfl rfl) rfl ltSigned_iff, checksTrap_of_exec (.encoded rfl rfl) rfl ltUnsigned_iff⟩

/-- Settles O41: each trap tests its comparison with `simm imm`. -/
theorem immediateTraps : Obligations.ImmediateTraps := by
  intro s rs imm
  rw [← toInt_simm imm]
  exact ⟨checksTrap_of_exec (.encoded rfl rfl) rfl beq_iff_eq, checksTrap_of_exec (.encoded rfl rfl) rfl bne_iff_ne,
    checksTrap_of_exec (.encoded rfl rfl) rfl not_ltSigned_iff,
    checksTrap_of_exec (.encoded rfl rfl) rfl not_ltUnsigned_iff,
    checksTrap_of_exec (.encoded rfl rfl) rfl ltSigned_iff, checksTrap_of_exec (.encoded rfl rfl) rfl ltUnsigned_iff⟩

/-! ### Exception return (44_system.md R232) -/

theorem returnEffect_returnFromException (s : State) : ReturnEffect s s.returnFromException := by
  unfold State.returnFromException
  refine ⟨fun r => by rw [reg_schedule]; rfl, by simp [SameHiLo], by simp, by simp, by simp, fun i => ?_, fun a => by simp,
    by simp, ?_, by simp, by simp⟩
  · rw [schedule_status]
    exact getLsbD_withoutExl s.status i
  · simp [SameRest, SameHost, SameRun, SameConsole]

/-- Settles O42: `eret` returns outside a delay slot and raises in one. -/
theorem exceptionReturn : Obligations.ExceptionReturn := fun s =>
  ⟨fun hp => runs_transfer hp (.encoded rfl rfl) rfl (returnEffect_returnFromException s),
    fun hp => runs_of_exec (.encoded rfl rfl) (congrArg Host.Outcome.next (controlTransfer_of_pend_isSome hp _))
      (endsFaulted_takeException s rfl)⟩

/-! ### Coprocessor 0 access (44_system.md R233, R234) -/

/-- Work that changes only Coprocessor 0 registers, and `Seq`. -/
theorem cp0Effect_seq {s t : State} {n : BitVec 5} {v : Word}
    (ht : t = { s with badVAddr := t.badVAddr, status := t.status, cause := t.cause, epc := t.epc })
    (hcp0 : Cp0Written s t n v) : Cp0Effect s (t.schedule .seq) n v := by
  refine ⟨fun r => ?_, ?_, by simpa [Cp0Written] using hcp0, ?_, ?_, ?_, ?_⟩
  · rw [reg_schedule, ht]
    rfl
  · rw [SameHiLo, schedule_hi, schedule_lo, ht]
    exact ⟨rfl, rfl⟩
  · intro a
    rw [schedule_mem, ht]
  · rw [schedule_llBit, ht]
  · rw [ht]
    simp [SameRest, SameHost, SameRun, SameConsole]
  · exact advanced_seq (by rw [ht]) (by rw [ht])

theorem exists_setCp0 {n : BitVec 5} (hn : n ∈ [8#5, 12#5, 13#5, 14#5]) (s : State) (v : Word) :
    ∃ t, s.setCp0 n v = some t ∧ Cp0Effect s (t.schedule .seq) n v := by
  fin_cases hn <;> exact ⟨_, rfl, cp0Effect_seq rfl ⟨rfl, rfl, rfl, rfl⟩⟩

/-- The immediate of a word split at bit 11 is its field rd and its low bits. -/
theorem rdOf_iType_append (op : BitVec 6) (rs rt rd : Reg) (low : BitVec 11) :
    rdOf (iType op rs rt (rd ++ low)) = rd := by
  unfold rdOf iType
  rw [BitVec.extractLsb'_append_eq_of_add_le (by decide), BitVec.extractLsb'_append_eq_of_le (by decide)]
  exact BitVec.extractLsb'_eq_self

theorem extractLsb'_iType_append (op : BitVec 6) (rs rt rd : Reg) (low : BitVec 11) :
    (iType op rs rt (rd ++ low)).extractLsb' 0 11 = low := by
  unfold iType
  rw [BitVec.extractLsb'_append_eq_of_add_le (by decide), BitVec.extractLsb'_append_eq_of_add_le (by decide)]
  exact BitVec.extractLsb'_eq_self

/-- Settles O43: the moves by `State.cp0` and `exists_setCp0`; the other numbers and the low bits are O5's. -/
theorem coprocessor0Moves : Obligations.Coprocessor0Moves := by
  intro s rt rd
  refine ⟨?badVAddr, ?status, ?cause, ?epc, fun hrd => ?mtc0, fun low hlow => ⟨?mfc0Refused, ?mtc0Refused⟩⟩
  case badVAddr | status | cause | epc => exact runs_retire (.encoded rfl rfl) rfl rfl
  case mtc0 =>
    obtain ⟨t, ht, heffect⟩ := exists_setCp0 hrd s (s.reg rt)
    have hwf : (Instr.mtc0 rt rd).wellFormed = true := (by decide : ∀ n ∈ _, isCp0Number n = true) rd hrd
    exact runs_of_exec (.encoded hwf rfl) (by rw [exec, execMtc0, ht]) heffect
  case mfc0Refused | mtc0Refused =>
    obtain ⟨-, -, -, -, -, -, -, -, hmove⟩ := excludedEncodingsRefused (iType 0x10#6 _ rt (rd ++ low))
    refine hmove (opOf_iType ..) (by simp) ?_
    rw [extractLsb'_iType_append, rdOf_iType_append]
    exact (not_and_or.1 hlow).symm

end Sys2Proof.Machine
end

section
/-! The syscall services (44_system.md R210 to R217). A word of `syscall` runs the service its number names (`runs_syscall`).
The bytes service 4 reads and the addresses service 8 checks are walked one by one: a walk over readable bytes or permitted
addresses leaves the walk from the next one (`readString_add`, `firstBadStore_drop`), and ends there. -/

namespace Sys2Proof.Machine

theorem runs_syscall {s t : State} {n : Word} {P : State → Prop} (code : BitVec 20) (hn : s.reg 2#5 = n)
    (hs : s.service n = t) (ht : P t) : Runs (codeType code 0x0C#6) .syscall s P :=
  runs_of_exec (.syscall code rfl) (by rw [← hs, ← hn]; rfl) ht

/-! ### Output (44_system.md R212, R213) -/

theorem printEffect_send (s : State) (bytes : List Byte) : PrintEffect s ((s.send bytes).schedule .seq) bytes :=
  ⟨fun r => by rw [reg_schedule]; rfl, by simp [SameHiLo], by simp [SameCp0], fun a => by simp, by simp,
    by simp [SameHost], by simp [SameRun], by simp, by simp, by simp, by simp, by simp, advanced_seq rfl rfl⟩

/-- Only 0 has a leading zero: the leading digit is that of a number with one digit less. -/
theorem head?_toDigits_ne_zero {n : Nat} (h : n ≠ 0) : (Nat.toDigits 10 n).head? ≠ some '0' := by
  induction n using Nat.strongRecOn with
  | ind n ih =>
    by_cases hlt : n < 10
    · simpa [Nat.toDigits_of_lt_base hlt] using h
    · rw [Nat.toDigits_of_base_le (by decide) (by omega), List.head?_append_of_ne_nil _ Nat.toDigits_ne_nil]
      exact ih (n / 10) (by omega) (by omega)

theorem toNat_of_mem_toDigits {n : Nat} {c : Char} (h : c ∈ Nat.toDigits 10 n) : 0x30 ≤ c.toNat ∧ c.toNat ≤ 0x39 := by
  have hdigit := Nat.isDigit_of_mem_toDigits (by decide) (by decide) h
  simpa [Char.isDigit, UInt32.le_iff_toNat_le] using hdigit

/-- The ASCII byte of a digit keeps its code. -/
theorem toNat_byte_of_mem_toDigits {n : Nat} {c : Char} (h : c ∈ Nat.toDigits 10 n) :
    (BitVec.ofNat 8 c.toNat).toNat = c.toNat := by
  have := toNat_of_mem_toDigits h
  rw [BitVec.toNat_ofNat]
  omega

theorem foldl_decimalNat (n : Nat) : (decimalNat n).foldl (fun m d => 10 * m + (d.toNat - 0x30)) 0 = n := by
  rw [decimalNat, List.foldl_map]
  have hcongr : (Nat.toDigits 10 n).foldl (fun m c => 10 * m + ((BitVec.ofNat 8 c.toNat).toNat - 0x30)) 0 =
      (Nat.toDigits 10 n).foldl (fun m c => 10 * m + (c.toNat - '0'.toNat)) 0 :=
    List.foldl_ext _ _ _ fun m c hc => by rw [toNat_byte_of_mem_toDigits hc]; rfl
  rw [hcongr, ← Nat.ofDigitChars_eq_foldl, Nat.ofDigitChars_ten_toDigits]

theorem head?_decimalNat_ne_zero {n : Nat} (h : (decimalNat n).length > 1) : (decimalNat n).head? ≠ some 0x30#8 := by
  have hlen : ¬ (Nat.toDigits 10 n).length ≤ 1 := by simpa [decimalNat] using h
  rw [Nat.length_toDigits_le_iff (by decide) (by decide)] at hlen
  rw [decimalNat, List.head?_map]
  intro hhead
  obtain ⟨c, hc, hbyte⟩ := Option.map_eq_some_iff.1 hhead
  have hnat := toNat_byte_of_mem_toDigits (List.mem_of_head? hc)
  rw [hbyte] at hnat
  obtain rfl : '0' = c := Char.toNat_inj.1 hnat
  exact head?_toDigits_ne_zero (by omega) hc

theorem decimalText_decimalInt (v : Int) : DecimalText (decimalInt v) v := by
  refine ⟨decimalNat v.natAbs, ?_, ?_, fun d hd => ?_, head?_decimalNat_ne_zero, foldl_decimalNat _⟩
  · unfold decimalInt
    split <;> rfl
  · simp [decimalNat, Nat.toDigits_ne_nil]
  · obtain ⟨c, hc, rfl⟩ := List.mem_map.1 hd
    rw [toNat_byte_of_mem_toDigits hc]
    exact toNat_of_mem_toDigits hc

/-- Settles O33: service 1 sends `decimalInt`. -/
theorem printIntegerService : Obligations.PrintIntegerService := fun s code hn =>
  runs_syscall code hn rfl ⟨_, decimalText_decimalInt _, printEffect_send s _⟩

/-! ### The bytes a service walks over (44_system.md R213, R215) -/

theorem add_ofNat_succ (a : Word) (k : Nat) : a + BitVec.ofNat 32 (k + 1) = a + 1 + BitVec.ofNat 32 k := by
  rw [Nat.add_comm, ← BitVec.ofNat_add_ofNat, ← BitVec.add_assoc]
  rfl

/-- The `n` bytes from `a` on, addresses modulo 2^32. -/
def Memory.bytesFrom (m : Memory) (a : Word) (n : Nat) : List Byte :=
  (List.range n).map (fun i => Memory.byteAt m (a + BitVec.ofNat 32 i))

theorem Memory.bytesFrom_succ (m : Memory) (a : Word) (n : Nat) :
    Memory.bytesFrom m a (n + 1) = Memory.byteAt m a :: Memory.bytesFrom m (a + 1) n := by
  unfold Memory.bytesFrom
  rw [List.range_succ_eq_map, List.map_cons, List.map_map, BitVec.add_zero]
  exact congrArg _ (List.map_congr_left fun i _ => congrArg _ (add_ofNat_succ a i))

section
variable {s : State} {a : Word} {n : Nat} (fuel : Nat)

theorem readString_of_not_check (h : s.check a .byte .load = false) :
    s.readString fuel a = .error (.addressErrorLoad a) := by
  cases fuel with
  | zero => rfl
  | succ fuel => simp [State.readString, State.memRead, h]

/-- What one byte that may be read makes of the walk. -/
theorem readString_succ (h : s.check a .byte .load = true) :
    s.readString (fuel + 1) a = if Memory.byteAt s.mem a = 0#8 then .ok []
      else (s.readString fuel (a + 1)).map (Memory.byteAt s.mem a :: ·) := by
  have hzero : (Memory.byteAt s.mem a).setWidth 32 = 0#32 ↔ Memory.byteAt s.mem a = 0#8 := by
    rw [← BitVec.toNat_inj, ← BitVec.toNat_inj, BitVec.toNat_setWidth_of_le (by decide)]
    rfl
  have hbyte : byteOf ((Memory.byteAt s.mem a).setWidth 32) 0 = Memory.byteAt s.mem a :=
    extractLsb'_setWidth_self _ (by decide)
  simp only [State.readString, memRead_of_check h, Memory.load, hzero, hbyte]

section
variable (h : ∀ i < n, s.check (a + BitVec.ofNat 32 i) .byte .load = true ∧
  Memory.byteAt s.mem (a + BitVec.ofNat 32 i) ≠ 0#8)
include h

/-- Bytes other than zero that may be read stand before what is read from the address after them. -/
theorem readString_add :
    s.readString (n + fuel) a =
      (s.readString fuel (a + BitVec.ofNat 32 n)).map (Memory.bytesFrom s.mem a n ++ ·) := by
  induction n generalizing a with
  | zero =>
    rw [Nat.zero_add, BitVec.add_zero]
    cases s.readString fuel a <;> rfl
  | succ n ih =>
    obtain ⟨hc, hne⟩ := h 0 (by omega)
    rw [BitVec.add_zero] at hc hne
    have hrest := ih fun i hi => add_ofNat_succ a i ▸ h (i + 1) (by omega)
    rw [Nat.add_right_comm, readString_succ _ hc, if_neg hne, hrest, add_ofNat_succ, Memory.bytesFrom_succ]
    cases s.readString fuel (a + 1 + BitVec.ofNat 32 n) <;> rfl

theorem readString_eq_ok (hc : s.check (a + BitVec.ofNat 32 n) .byte .load = true)
    (hzero : Memory.byteAt s.mem (a + BitVec.ofNat 32 n) = 0#8) :
    s.readString (n + (fuel + 1)) a = .ok (Memory.bytesFrom s.mem a n) := by
  rw [readString_add _ h, readString_succ _ hc, if_pos hzero, Except.map, List.append_nil]

theorem readString_eq_error (hc : s.check (a + BitVec.ofNat 32 n) .byte .load = false) :
    s.readString (n + fuel) a = .error (.addressErrorLoad (a + BitVec.ofNat 32 n)) := by
  rw [readString_add _ h, readString_of_not_check _ hc, Except.map]

end

/-- Address 0 may not be read, so addresses that may be read do not wrap around (20_memory.md R52). -/
theorem toNat_add_le_of_readable (h : ∀ i < n, s.check (a + BitVec.ofNat 32 i) .byte .load = true) :
    a.toNat + n ≤ 2 ^ 32 := by
  by_contra hgt
  have hwrap : a + BitVec.ofNat 32 (2 ^ 32 - a.toNat) = 0#32 := by
    apply BitVec.eq_of_toNat_eq
    rw [BitVec.toNat_add, BitVec.toNat_ofNat, BitVec.toNat_ofNat]
    omega
  have hc := h (2 ^ 32 - a.toNat) (by omega)
  obtain ⟨-, hperm, -⟩ := (check_iff s _ .byte .load).1 hc
  rw [hwrap] at hperm
  exact absurd hperm (by decide)

end

/-- Settles O34: the walk stops after the `n` bytes, at the zero byte or at the one that may not be read. -/
theorem printStringService : Obligations.PrintStringService := by
  rintro s code a n hn rfl hbytes
  have hle := toNat_add_le_of_readable fun i hi => (hbytes i hi).1
  refine ⟨fun hc hzero => ?printed, fun hc => ?failed⟩ <;>
    refine runs_syscall code hn (t := s.servicePrintString) rfl ?_
  case printed =>
    have hlt := toNat_add_le_of_readable (Nat.forall_lt_succ_right.2 ⟨fun i hi => (hbytes i hi).1, hc⟩)
    obtain ⟨fuel, hfuel⟩ := Nat.exists_eq_add_of_le hlt
    rw [State.servicePrintString, regA0, show 2 ^ 32 - (s.reg 4#5).toNat = n + (fuel + 1) by omega,
      readString_eq_ok fuel hbytes hc hzero]
    exact printEffect_send s _
  case failed =>
    obtain ⟨fuel, hfuel⟩ := Nat.exists_eq_add_of_le hle
    rw [State.servicePrintString, regA0, show 2 ^ 32 - (s.reg 4#5).toNat = n + fuel by omega,
      readString_eq_error fuel hbytes hc]
    exact endsFaulted_takeException s rfl

/-! ### Input (44_system.md R214, R215) -/

theorem takeConsoleInt_of_answersInt {s s' : State} {answer : Option Word} (h : AnswersInt s answer s') :
    s.takeConsoleInt = (answer, s') := by
  obtain ⟨rest, hlist, rfl⟩ | ⟨hlist, rfl, rfl⟩ := h <;> simp [State.takeConsoleInt, hlist]

theorem takeConsoleStr_of_answersStr {s s' : State} {str : List Byte} (h : AnswersStr s str s') :
    s.takeConsoleStr = (str, s') := by
  obtain ⟨rest, hlist, rfl⟩ | ⟨hlist, rfl, rfl⟩ := h <;> simp [State.takeConsoleStr, hlist]

/-- Settles O35: service 5 retires the answer, or raises in the state after it. -/
theorem readIntegerService : Obligations.ReadIntegerService := by
  intro s s' code answer hn hans
  refine ⟨fun v hv => ?_, fun hv => ?_⟩ <;> rw [hv] at hans
  · exact runs_syscall code hn (t := s'.retire regV0 v)
      (show s.serviceReadInt = _ by rw [State.serviceReadInt, takeConsoleInt_of_answersInt hans]) (regEffect_retire ..)
  · exact runs_syscall code hn (t := s'.takeException (.syscallError 5#32))
      (show s.serviceReadInt = _ by rw [State.serviceReadInt, takeConsoleInt_of_answersInt hans])
      (endsFaulted_takeException s' rfl)

/-- Addresses that may be stored to leave the walk from the address after them. -/
theorem firstBadStore_drop {s : State} {a : Word} {i : Nat} (bs : List Byte)
    (h : ∀ j < i, s.check (a + BitVec.ofNat 32 j) .byte .store = true) :
    s.firstBadStore a bs = s.firstBadStore (a + BitVec.ofNat 32 i) (bs.drop i) := by
  induction i generalizing a bs with
  | zero => simp
  | succ i ih =>
    cases bs with
    | nil => rfl
    | cons b rest =>
      have hc : s.check a .byte .store = true := by simpa using h 0 (by omega)
      rw [State.firstBadStore, if_pos hc, add_ofNat_succ, List.drop_succ_cons]
      exact ih rest fun j hj => add_ofNat_succ a j ▸ h (j + 1) (by omega)

/-- The bytes service 8 stores, in the terms of O36. -/
theorem boundedString_toNat {n : Int} {str : List Byte} {k : Nat} (hk : (k : Int) = min (str.length : Int) (n - 1)) :
    boundedString n.toNat str = str.take k ++ [0#8] ∧ (boundedString n.toNat str).length = k + 1 := by
  have htake : str.take (n.toNat - 1) = str.take k := List.take_eq_take_iff.2 (by omega)
  rw [boundedString, htake]
  refine ⟨rfl, ?_⟩
  rw [List.length_append, List.length_take, List.length_singleton]
  omega

theorem answered_of_answersStr {s s' : State} {str : List Byte} (h : AnswersStr s str s') : Answered s s' := by
  obtain ⟨rest, -, rfl⟩ | ⟨-, -, rfl⟩ := h <;> rfl

section
variable {s s' : State} {str : List Byte} (hpos : 0 < (s.reg 5#5).toInt) (hans : AnswersStr s str s')
include hpos hans

theorem serviceReadString_of_none
    (h : s'.firstBadStore (s.reg 4#5) (boundedString (s.reg 5#5).toInt.toNat str) = none) :
    s.serviceReadString = { s' with
      mem := Memory.storeBytes s'.mem (s.reg 4#5) (boundedString (s.reg 5#5).toInt.toNat str) }.schedule .seq := by
  rw [State.serviceReadString, regA0, regA1, if_neg (Int.not_le.2 hpos), takeConsoleStr_of_answersStr hans]
  simp only [h]

theorem serviceReadString_of_some {bad : Word}
    (h : s'.firstBadStore (s.reg 4#5) (boundedString (s.reg 5#5).toInt.toNat str) = some bad) :
    s.serviceReadString = s'.takeException (.addressErrorStore bad) := by
  rw [State.serviceReadString, regA0, regA1, if_neg (Int.not_le.2 hpos), takeConsoleStr_of_answersStr hans]
  simp only [h]

end

/-- Settles O36: the walk over the addresses ends with none bad, or at the first that is. -/
theorem readStringService : Obligations.ReadStringService := by
  rintro s code buf n hm hn rfl rfl
  refine ⟨fun hle => ?none, fun hpos str s' k hans hk => ?_⟩
  case none => exact runs_syscall code hn (t := s.schedule .seq) (if_pos hle) (noEffect_seq s)
  obtain ⟨hbytes, hlen⟩ := boundedString_toNat hk
  obtain ⟨-, -, -, -, -, -, hstatus, -, -, -, hmem, -, -, -, -, -, -, -, -, -, hcfg⟩ :=
    answered_fields (answered_of_answersStr hans)
  simp only [← check_congr hcfg hstatus]
  refine ⟨fun hall => ?stored, fun i hi hbad hbefore => ?failed⟩
  case stored =>
    have hfirst := firstBadStore_drop (i := k + 1) (boundedString (s.reg 5#5).toInt.toNat str)
      fun j hj => hall j (Nat.le_of_lt_succ hj)
    rw [List.drop_eq_nil_of_le hlen.le, State.firstBadStore] at hfirst
    refine runs_syscall code hn (serviceReadString_of_none hpos hans hfirst) ?_
    have hsmall : k + 1 ≤ 2 ^ 32 := by
      have := (s.reg 5#5).toInt_lt
      omega
    rw [← hbytes]
    exact storeEffect_storeBytes s' (hmem ▸ hm) _ _ (hlen ▸ hsmall)
  case failed =>
    have hfirst := firstBadStore_drop (boundedString (s.reg 5#5).toInt.toNat str) hbefore
    rw [List.drop_eq_getElem_cons (by omega), State.firstBadStore, if_neg (by simp [hbad])] at hfirst
    exact runs_syscall code hn (serviceReadString_of_some hpos hans hfirst) (endsFaulted_takeException s' rfl)

/-! ### Memory allocation and exit (44_system.md R216, R217) -/

theorem roundUp4_eq {m r : Nat} (hle : m ≤ r) (hlt : r < m + 4) (hr : r % 4 = 0) : roundUp4 m = r := by
  unfold roundUp4
  omega

/-- `$v0` takes the old `heapTop`, which becomes `top`, and `Seq`. -/
theorem allocateEffect_seq (s : State) (top : Word) :
    AllocateEffect s ({ s.setReg 2#5 s.heapTop with heapTop := top }.schedule .seq) top.toNat := by
  refine ⟨fun r => ?_, by simp [SameHiLo], by simp [SameCp0], fun a => by simp, by simp, by simp [SameHost],
    by simp [SameRun], by simp [SameConsole], by simp, by simp, advanced_seq (by simp) (by simp)⟩
  rw [reg_schedule]
  exact reg_setReg ..

/-- Settles O37: the cases of service 9; the check reads no `heapTop`. -/
theorem allocateService : Obligations.AllocateService := by
  intro s code hn
  refine ⟨fun hneg => ?negative, fun r hpos hle hlt hr => ?_, fun top a n k => check_congr rfl rfl a n k⟩
  case negative =>
    exact runs_syscall code hn (t := s.takeException (.syscallError 9#32)) (if_pos hneg)
      (endsFaulted_takeException s rfl)
  have hnat : (s.reg 4#5).toInt = (s.reg 4#5).toNat := BitVec.toInt_eq_toNat_of_lt (BitVec.toInt_pos_iff.1 hpos)
  have hround : roundUp4 (s.reg 4#5).toNat = r := roundUp4_eq (by omega) (by omega) hr
  have hservice : s.service 9#32 = s.serviceAllocate := rfl
  rw [State.serviceAllocate, regA0, hround, if_neg (Int.not_lt.2 hpos)] at hservice
  refine ⟨fun hbig => ?large, fun hfits => ?fits⟩
  case large =>
    exact runs_syscall code hn (hservice.trans (if_pos hbig)) (endsFaulted_takeException s rfl)
  case fits =>
    have htop : (s.heapTop + BitVec.ofNat 32 r).toNat = s.heapTop.toNat + r := by
      rw [BitVec.toNat_add, BitVec.toNat_ofNat]
      omega
    rw [← htop]
    exact runs_syscall code hn (hservice.trans (if_neg (Nat.not_lt.2 hfits))) (allocateEffect_seq s _)

theorem service_of_unknown (s : State) {n : Word} (hn : n ∉ [1#32, 4#32, 5#32, 8#32, 9#32, 10#32]) :
    s.service n = s.takeException (.syscallError n) := by
  simp only [List.mem_cons, List.not_mem_nil, or_false, not_or] at hn
  obtain ⟨h1, h4, h5, h8, h9, h10⟩ := hn
  rw [State.service, if_neg h1, if_neg h4, if_neg h5, if_neg h8, if_neg h9, if_neg h10]

/-- Settles O38: service 10 halts, and the table is closed. -/
theorem exitAndUnknownService : Obligations.ExitAndUnknownService := fun s code =>
  ⟨fun hn => runs_syscall code hn rfl (haltEffect_halt s 0#32),
    fun hn => runs_syscall code rfl (service_of_unknown s hn) (endsFaulted_takeException s rfl)⟩

end Sys2Proof.Machine
end

section
/-! Exceptions (60_exceptions.md). What taking an exception does is said by `endsFaulted_takeException` and
`trapped_takeException`; what an instruction may have done before it raises, by `exec_cases`: use up an answer of the host
(`untouched_of_answered`). An instruction that does not raise clears `EXL` or leaves `Status` alone unless it is `mtc0`
(`worked_status`). -/

namespace Sys2Proof.Machine

/-! ### Precision (60_exceptions.md R241) -/

/-- What an exception leaves unchanged also when the host's answer was used up before it. -/
theorem untouched_of_answered {s b t : State} (hans : Answered s b) (h : NotTouched b t) :
    SameRegs s t ∧ SameHiLo s t ∧ t.llBit = s.llBit ∧ t.heapTop = s.heapTop ∧ SameBytes s t ∧
      t.consoleOut = s.consoleOut ∧ SameHost s t ∧ t.exitCode = s.exitCode := by
  rw [hans] at h
  obtain ⟨hregs, hhilo, hbytes, hll, hheap, ⟨hout, -⟩, hhost, hexit, -⟩ := h
  exact ⟨hregs, hhilo, hll, hheap, hbytes, hout, hhost, hexit⟩

/-- An exception goes to the handler, or ends the run at the instruction (60_exceptions.md R245, R246). -/
theorem takeException_pc (s : State) (e : Exc) :
    (s.takeException e).pc = s.pc ∧ (s.takeException e).runState = .faulted ∨ (s.takeException e).pc = handlerAddr := by
  obtain ⟨hpc, hrun, -⟩ | ⟨hpc, -⟩ := takeException_end s e
  · exact .inl ⟨hpc, hrun⟩
  · exact .inr hpc

section
variable {i : Instr} {s b : State} (hwork : Worked i s b)
include hwork

/-- The work of an instruction other than `mtc0` on `Status`, bit by bit: only `EXL` can change, and it can only fall. -/
theorem worked_status (hi : i.isMtc0 = false) (k : Nat) : b.status.getLsbD k = s.status.getLsbD k ∨
    (k = 1 ∧ b.status.getLsbD k = false) := by
  obtain ⟨⟨-, h⟩ | h, -⟩ := hwork.cp0 hi
  · rw [h, getLsbD_withoutExl]
    by_cases hk : k = 1
    · exact .inr ⟨hk, by simp [hk]⟩
    · exact .inl (by simp [hk])
  · exact .inl (by rw [h])

/-- An instruction that does not raise does not raise `EXL` (`mtc0` apart) and does not end the run in `Faulted`. -/
theorem not_exception_of_worked (n : NextPc) :
    ¬((s.exl = false ∧ (b.schedule n).exl = true ∧ i.isMtc0 = false) ∨
      (s.runState ≠ .faulted ∧ (b.schedule n).runState = .faulted)) := by
  rintro (⟨hclear, hset, hi⟩ | ⟨hne, hf⟩)
  · rw [State.exl, schedule_status] at hset
    obtain h | ⟨-, h⟩ := worked_status hwork hi 1
    · cases hset.symm.trans (h.trans hclear)
    · cases hset.symm.trans h
  · obtain ⟨-, -, hrun, -⟩ := worked_fields hwork
    cases n with
    | halt c => cases hf
    | seq => exact hne (by rw [← hrun, ← hf, schedule_seq_runState])
    | branch | ret => exact hne (hrun ▸ hf)

end

/-- Settles O45: by `exec_cases` an instruction that raised did nothing but use up an answer of the host. -/
theorem exceptionsArePrecise : Obligations.ExceptionsArePrecise := by
  intro i s t hx hraised
  obtain ⟨b, e, h, hans, -⟩ | ⟨b, n, h, hwork, -⟩ := exec_cases i s <;> cases hx.symm.trans h
  · obtain ⟨hregs, hhilo, hll, hheap, hbytes, hout, hhost, hexit⟩ :=
      untouched_of_answered hans (notTouched_takeException b e)
    obtain ⟨-, hpc, -⟩ := answered_fields hans
    have hwhere := (takeException_pc b e).imp_left And.left
    rw [hpc] at hwhere
    exact ⟨hregs, hhilo, hll, hheap, hbytes, hout, hhost, hexit, by simp, hwhere⟩
  · exact absurd hraised (not_exception_of_worked hwork n)

/-! ### The mode (60_exceptions.md R251, 10_state.md R29, R33) -/

theorem kernel_of_exl {s : State} (h : s.exl = true) : s.kernel = true := by
  simp [State.kernel, h]

theorem kernel_congr {s t : State} (h : t.status = s.status) : t.kernel = s.kernel := by
  simp only [State.kernel, State.exl, State.um, h]

/-- `exec` is total: no instruction faults or is refused. -/
theorem exists_exec_eq_next (i : Instr) (s : State) : ∃ t, exec i s = .next t := by
  obtain ⟨b, e, h, -⟩ | ⟨b, n, h, -⟩ := exec_cases i s <;> exact ⟨_, h⟩

/-- An instruction that changes the mode is `mtc0` or `eret`, or entered an exception from user mode. -/
theorem exec_changes_kernel {i : Instr} {s t : State} (hx : exec i s = .next t) (hne : t.kernel ≠ s.kernel) :
    i.isMtc0 = true ∨ i = .eret ∨
      (s.kernel = false ∧ t.exl = true ∧ t.pend = none ∧ (t.pc = handlerAddr ∨ t.runState = .faulted)) := by
  obtain ⟨b, e, h, -⟩ | ⟨b, n, h, hwork, -⟩ := exec_cases i s <;> cases hx.symm.trans h
  · have hexl := takeException_exl b e
    have huser : s.kernel = false := by simpa [kernel_of_exl hexl] using hne.symm
    exact .inr (.inr ⟨huser, hexl, by simp, (takeException_pc b e).symm.imp_right And.right⟩)
  · by_cases hi : i.isMtc0 = true
    · exact .inl hi
    · obtain ⟨⟨heret, -⟩ | hstatus, -⟩ := hwork.cp0 (by simpa using hi)
      · exact .inr (.inl heret)
      · exact absurd (kernel_congr (by rw [schedule_status, hstatus])) hne

/-- Only `mtc0` writes a bit of `Status` other than `EXL` (10_state.md R29). -/
theorem exec_keeps_status_bit {i : Instr} {s t : State} (hx : exec i s = .next t) (hi : i.isMtc0 = false) {k : Nat}
    (hk : k ≠ 1) : t.status.getLsbD k = s.status.getLsbD k := by
  obtain ⟨b, e, h, hans, -⟩ | ⟨b, n, h, hwork, -⟩ := exec_cases i s <;> cases hx.symm.trans h
  · rw [takeException_status, recordException_status, getLsbD_withExl, hans]
    simp [hk]
  · rw [schedule_status]
    exact (worked_status hwork hi k).resolve_right fun ⟨h1, _⟩ => hk h1

/-- Settles O51: its three clauses, each from `exec_cases`. -/
theorem modeChanges : Obligations.ModeChanges :=
  ⟨exists_exec_eq_next, fun _ _ _ => exec_changes_kernel, fun _ _ _ _ hx hi => exec_keeps_status_bit hx hi⟩

/-! ### The exception process (60_exceptions.md R243 to R246) -/

theorem step_of_faulted {s : State} (hrun : s.runState = .faulted) (hcmd : s.commands = []) : step s = .fault .faulted := by
  simp only [step, State.cycle, hcmd, hrun]

/-- Settles O44: the seven exceptions that end the run, the two that may be delivered, and the step after the end. -/
theorem exceptionProcess : Obligations.ExceptionProcess := fun s _ _ _ =>
  ⟨endsFaulted_takeException s rfl, endsFaulted_takeException s rfl, endsFaulted_takeException s rfl,
    endsFaulted_takeException s rfl, endsFaulted_takeException s rfl, endsFaulted_takeException s rfl,
    endsFaulted_takeException s rfl, trapped_takeException s rfl, trapped_takeException s rfl, step_of_faulted⟩

/-! ### To the handler and back (60_exceptions.md R245, R248) -/

section
variable {s t u : State} {code : BitVec 5} (hexl : s.exl = false) (hto : Delivered s t code) (hback : ReturnEffect t u)
include hexl hto hback

/-- The return address is that of the instruction that raised, or of its branch. -/
theorem pc_of_delivered_returned : (s.pend = none → u.pc = s.pc) ∧ (∀ p, s.pend = some p → u.pc = p.branch) := by
  obtain ⟨⟨-, -, -, hepc, hbranch, -⟩, -⟩ := hto
  obtain ⟨-, -, -, -, -, -, -, -, -, hpc, -⟩ := hback
  exact ⟨fun hp => hpc.trans (hepc hexl hp), fun p hp => hpc.trans (hbranch p hexl hp)⟩

/-- Delivery sets `EXL`, which was clear, and the return clears it. -/
theorem status_of_delivered_returned : u.status = s.status := by
  obtain ⟨⟨-, -, -, -, -, -, -, hset, -⟩, -⟩ := hto
  obtain ⟨-, -, -, -, -, hclear, -⟩ := hback
  refine BitVec.eq_of_getLsbD_eq fun k _ => ?_
  rw [hclear, hset]
  by_cases hk : k = 1
  · subst hk
    rw [decide_eq_false (not_not.2 rfl), Bool.and_false]
    exact hexl.symm
  · simp [hk]

end

/-- Settles O46: delivery and return composed, by `trapped_takeException` and `returnEffect_returnFromException`. -/
theorem handlerReturnRestores : Obligations.HandlerReturnRestores := by
  intro s code hexl hinst
  obtain ⟨hdelivered, -⟩ := trapped_takeException s (e := .breakpoint code) rfl
  have hto := hdelivered hexl hinst
  have hback := returnEffect_returnFromException (s.takeException (.breakpoint code))
  obtain ⟨hpc, hpcSlot⟩ := pc_of_delivered_returned hexl hto hback
  have hstatus := status_of_delivered_returned hexl hto hback
  obtain ⟨⟨-, -, -, -, -, -, -, -, hpend⟩, ⟨hregs, -, hbytes, -⟩, hhandler, hrun, -⟩ := hto
  obtain ⟨hregs', -, -, -, -, -, hbytes', hll, ⟨-, ⟨hrun', -⟩, -⟩, -, hpend'⟩ := hback
  exact ⟨_, _, rfl, hhandler, kernel_of_exl (takeException_exl ..),
    congrArg Host.Outcome.next (controlTransfer_of_pend_none hpend _), hpc, hpcSlot, hpend', hstatus, hll,
    fun r => (hregs' r).trans (hregs r), fun a => (hbytes' a).trans (hbytes a), hrun'.trans hrun⟩

/-! ### The installed handler (60_exceptions.md R247) -/

theorem handlerInstalled_congr {s t : State} (h : t.image = s.image) : t.handlerInstalled = s.handlerInstalled := by
  simp only [State.handlerInstalled, State.imageDefines, h]

@[simp] theorem endStep_image (s : State) : s.endStep.image = s.image := by
  unfold State.endStep
  split <;> rfl

/-- Only a `load` changes the retained image (10_state.md R39). -/
theorem step_keeps_image {s t : State} (h : step s = .next t) (hload : ∀ img rest, s.commands ≠ .load img :: rest) :
    t.image = s.image := by
  cases step_cases h with
  | load img rest hc => exact absurd hc (hload img rest)
  | reset img rest hc hr himg e => exact e ▸ himg.symm
  | single rest u hc hr hx e => rw [e, endStep_image, instrStep_image hx, Begun]
  | looped hc hr hx => rw [instrStep_image hx, Begun]
  | refused _ _ _ e | control _ _ _ _ _ _ _ _ e | breakpoint _ _ _ _ _ _ e | pausedAt _ _ e => rw [e]

/-- Settles O47: the image decides it, and `step_keeps_image`. -/
theorem handlerInstalledIsFixed : Obligations.HandlerInstalledIsFixed :=
  ⟨fun _ => imageDefines_iff, fun _ _ h hload => handlerInstalled_congr (step_keeps_image h hload)⟩

end Sys2Proof.Machine
end

section
/-! User mode does not reach the kernel segments (60_exceptions.md R251, 20_memory.md R53). `LowEq s u` says that `u` is `s` but
for bytes of the kernel segments: the shared operations keep it whatever the mode, and in user mode a read answers the same in
both states (`LowEq.memRead`), so every instruction keeps it (`exec_lowEq`). A store permitted in user mode writes no byte of
a kernel segment (`exec_keeps_kernel_byte`). -/

namespace Sys2Proof.Machine

/-! ### What user mode may access (20_memory.md R53) -/

/-- User mode with privilege enforced. -/
structure State.Unprivileged (s : State) : Prop where
  user : s.kernel = false
  enforced : s.cfg.enforceKernelPriv = true

theorem State.Unprivileged.not_kernelAccess {s : State} (hu : s.Unprivileged) : ¬s.KernelAccess := by
  intro h
  have huser := hu.user
  simp only [State.kernel, State.exl, State.um, Bool.or_eq_false_iff, Bool.not_eq_false'] at huser
  obtain ⟨hexl, hum⟩ := huser
  obtain h | h := h hu.enforced
  · cases h.symm.trans hexl
  · cases h.symm.trans hum

/-- What user mode may load lies below the kernel segments. -/
theorem toNat_lt_of_check_load {s : State} (hu : s.Unprivileged) {a : Word} {n : Width} (hc : s.check a n .load = true)
    {k : Nat} (hk : k < widthBytes n) : (a + BitVec.ofNat 32 k).toNat < 0x80000000 := by
  obtain ⟨hal, hperm, hpriv⟩ := (check_iff s a n .load).1 hc
  rw [segPermits_load_iff] at hperm
  rw [segKernelOnly_iff] at hpriv
  have hlow : a.toNat < 0x80000000 := by
    by_contra hge
    exact hu.not_kernelAccess (hpriv ⟨by omega, hperm.2⟩)
  rw [toNat_add_of_aligned hal hk]
  cases n <;> simp only [widthBytes] at hal hk <;> omega

/-- An instruction in user mode writes no byte of a kernel segment. -/
theorem exec_keeps_kernel_byte {i : Instr} {s t : State} (hm : Memory.wf s.mem = true) (hu : s.Unprivileged)
    (hx : exec i s = .next t) {a : Word} (ha : 0x80000000 ≤ a.toNat) :
    Memory.byteAt t.mem a = Memory.byteAt s.mem a := by
  obtain ⟨b, e, h, hans, -⟩ | ⟨b, n, h, hwork, -⟩ := exec_cases i s <;> cases hx.symm.trans h
  · rw [takeException_mem, hans]
  · rw [schedule_mem]
    obtain hb | ⟨d, bs, hb, -, hc⟩ := hwork.stored
    · rw [hb]
    · rw [hb]
      refine Memory.byteAt_storeBytes_of_ne hm d a bs fun k hk had => ?_
      have hlow := toNat_lt_of_check_load hu (check_load_of_store (hc k hk)) (k := 0) (by decide)
      rw [BitVec.add_zero, ← had] at hlow
      omega

/-! ### Two states that differ in bytes of the kernel segments only -/

/-- `u` is `s` but for bytes of memory from 0x80000000 up (20_memory.md R52); both memories are canonical. -/
structure LowEq (s u : State) : Prop where
  frame : u = { s with mem := u.mem }
  wf : Memory.wf s.mem = true
  wf' : Memory.wf u.mem = true
  low : ∀ a : Word, a.toNat < 0x80000000 → Memory.byteAt u.mem a = Memory.byteAt s.mem a

/-- The answers of an access are the same exception, or states that differ in bytes of the kernel segments only. -/
inductive AnswerLowEq : Except Exc State → Except Exc State → Prop
  | error (e : Exc) : AnswerLowEq (.error e) (.error e)
  | ok {t v : State} (h : LowEq t v) : AnswerLowEq (.ok t) (.ok v)

/-- Equal bytes are stored at the same addresses, so bytes that agree before agree after. -/
theorem byteAt_storeBytes_congr {m m' : Memory} (hm : Memory.wf m = true) (hm' : Memory.wf m' = true) (bs : List Byte)
    (a : Word) {b : Word} (h : Memory.byteAt m' b = Memory.byteAt m b) :
    Memory.byteAt (Memory.storeBytes m' a bs) b = Memory.byteAt (Memory.storeBytes m a bs) b := by
  induction bs generalizing m m' a with
  | nil => exact h
  | cons v bs ih =>
    refine ih (Memory.wf_setByteAt hm a v) (Memory.wf_setByteAt hm' a v) (a + 1) ?_
    rw [Memory.byteAt_setByteAt hm, Memory.byteAt_setByteAt hm', h]

/-- A value is loaded from its own bytes. -/
theorem load_congr {m m' : Memory} {a : Word} {n : Width}
    (h : ∀ k < widthBytes n, Memory.byteAt m' (a + BitVec.ofNat 32 k) = Memory.byteAt m (a + BitVec.ofNat 32 k)) :
    Memory.load m' a n = Memory.load m a n := by
  have h0 := h 0 (by cases n <;> decide)
  rw [BitVec.add_zero] at h0
  cases n with
  | byte => rw [Memory.load, Memory.load, h0]
  | half =>
    have h1 : Memory.byteAt m' (a + 1) = Memory.byteAt m (a + 1) := h 1 (by decide)
    rw [Memory.load, Memory.load, h0, h1]
  | word =>
    have h1 : Memory.byteAt m' (a + 1) = Memory.byteAt m (a + 1) := h 1 (by decide)
    have h2 : Memory.byteAt m' (a + 2) = Memory.byteAt m (a + 2) := h 2 (by decide)
    have h3 : Memory.byteAt m' (a + 3) = Memory.byteAt m (a + 3) := h 3 (by decide)
    rw [Memory.load, Memory.load, h0, h1, h2, h3]

theorem firstBadStore_congr {s u : State} (hcfg : u.cfg = s.cfg) (hstatus : u.status = s.status) (a : Word)
    (bs : List Byte) : u.firstBadStore a bs = s.firstBadStore a bs := by
  induction bs generalizing a with
  | nil => rfl
  | cons b bs ih => rw [State.firstBadStore, State.firstBadStore, check_congr hcfg hstatus, ih]

/-! ### The shared operations keep `LowEq` -/

namespace LowEq

variable {s u t v : State} (h : LowEq s u)
include h

theorem exists_mem : ∃ m, u = { s with mem := m } := ⟨_, h.frame⟩

/-- Work that neither reads nor writes memory. -/
theorem update (f : State → State) (hf : ∀ (x : State) (m : Memory), f { x with mem := m } = { f x with mem := m }) :
    LowEq (f s) (f u) := by
  obtain ⟨m, rfl⟩ := h.exists_mem
  have hmem : (f s).mem = s.mem := (congrArg State.mem (hf s s.mem) :)
  rw [hf s m]
  exact ⟨rfl, hmem ▸ h.wf, h.wf', hmem ▸ h.low⟩

theorem reg (r : Reg) : u.reg r = s.reg r := reg_congr (by rw [h.frame]) r

theorem check (a : Word) (n : Width) (k : AccessKind) : u.check a n k = s.check a n k :=
  check_congr (by rw [h.frame]) (by rw [h.frame]) a n k

theorem setReg (r : Reg) (x : Word) : LowEq (s.setReg r x) (u.setReg r x) := by
  refine h.update (State.setReg · r x) fun _ _ => ?_
  unfold State.setReg
  split <;> rfl

theorem schedule (n : NextPc) : LowEq (s.schedule n) (u.schedule n) := by
  refine h.update (State.schedule · n) fun x _ => ?_
  cases n with
  | seq => unfold State.schedule; cases x.pend <;> rfl
  | branch | ret | halt => rfl

theorem takeException (e : Exc) : LowEq (s.takeException e) (u.takeException e) := by
  refine h.update (State.takeException · e) fun x m => ?_
  have hexl : State.exl { x with mem := m } = x.exl := rfl
  have hinst : State.handlerInstalled { x with mem := m } = x.handlerInstalled := rfl
  simp only [State.takeException, hexl, hinst]
  split_ifs <;> rfl

theorem setCp0 (n : BitVec 5) (x : Word) : (s.setCp0 n x = none ∧ u.setCp0 n x = none) ∨
    ∃ t v, s.setCp0 n x = some t ∧ u.setCp0 n x = some v ∧ LowEq t v := by
  unfold State.setCp0
  split_ifs
  · exact .inr ⟨_, _, rfl, rfl, h.update (fun y => { y with badVAddr := x }) fun _ _ => rfl⟩
  · exact .inr ⟨_, _, rfl, rfl, h.update (fun y => { y with status := x }) fun _ _ => rfl⟩
  · exact .inr ⟨_, _, rfl, rfl, h.update (fun y => { y with cause := x }) fun _ _ => rfl⟩
  · exact .inr ⟨_, _, rfl, rfl, h.update (fun y => { y with epc := x }) fun _ _ => rfl⟩
  · exact .inl ⟨rfl, rfl⟩

/-- A register write that also writes LLbit, as `ll` and `sc` do. -/
theorem setRegLink (r : Reg) (x : Word) (b : Bool) :
    LowEq { s.setReg r x with llBit := b } { u.setReg r x with llBit := b } :=
  (h.setReg r x).update (fun y => { y with llBit := b }) fun _ _ => rfl

theorem storeBytes (a : Word) (bs : List Byte) :
    LowEq { s with mem := Memory.storeBytes s.mem a bs } { u with mem := Memory.storeBytes u.mem a bs } :=
  ⟨by rw [h.frame], Memory.wf_storeBytes h.wf a bs, Memory.wf_storeBytes h.wf' a bs,
    fun _ hb => byteAt_storeBytes_congr h.wf h.wf' bs a (h.low _ hb)⟩

/-! The ways an instruction ends -/

theorem returnFromException : LowEq s.returnFromException u.returnFromException :=
  h.update State.returnFromException fun _ _ => rfl

theorem retire (rd : Reg) (x : Word) : LowEq (s.retire rd x) (u.retire rd x) := (h.setReg rd x).schedule .seq

theorem retireHiLo (hi lo : Word) : LowEq (s.retireHiLo hi lo) (u.retireHiLo hi lo) :=
  (h.update (fun y => { y with hi := hi, lo := lo }) fun _ _ => rfl).schedule .seq

theorem draw : LowEq s.draw.2 u.draw.2 :=
  h.update (fun y => y.draw.2) fun _ _ => rfl

theorem retireDiv0 : LowEq s.retireDiv0 u.retireDiv0 := by
  obtain ⟨m, rfl⟩ := h.exists_mem
  exact h.draw.retireHiLo _ _

theorem retireChecked (rd : Reg) (r : BitVec 33) : LowEq (s.retireChecked rd r) (u.retireChecked rd r) := by
  unfold State.retireChecked
  split
  · exact h.takeException _
  · exact h.retire _ _

theorem trapIf (c : Bool) (code : BitVec 10) : LowEq (s.trapIf c code) (u.trapIf c code) := by
  unfold State.trapIf
  split
  · exact h.takeException _
  · exact h.schedule _

theorem controlTransfer (htv : LowEq t v) : LowEq (s.controlTransfer t) (u.controlTransfer v) := by
  have hpend : u.pend = s.pend := by rw [h.frame]
  unfold State.controlTransfer
  rw [hpend]
  split
  · exact h.takeException _
  · exact htv

theorem finish {x y : Except Exc State} (hxy : AnswerLowEq x y) : LowEq (s.finish x) (u.finish y) := by
  cases hxy with
  | error e => exact h.takeException e
  | ok htv => exact htv.schedule .seq

theorem finishReg {x y : Except Exc Word} (rd : Reg) (hxy : y = x) : LowEq (s.finishReg rd x) (u.finishReg rd y) := by
  subst hxy
  cases y with
  | error e => exact h.takeException e
  | ok w => exact h.retire rd w

/-! Memory accesses: a store stores the same; a read needs user mode to read the same -/

theorem memWrite (a : Word) (n : Width) (x : Word) : AnswerLowEq (s.memWrite a n x) (u.memWrite a n x) := by
  unfold State.memWrite
  rw [h.check]
  split
  · exact .ok (h.storeBytes a _)
  · exact .error _

theorem memWritePartial (a start : Word) (bs : List Byte) :
    AnswerLowEq (s.memWritePartial a start bs) (u.memWritePartial a start bs) := by
  unfold State.memWritePartial
  rw [h.check]
  split
  · exact .ok (h.storeBytes start bs)
  · exact .error _

variable (hu : s.Unprivileged)
include hu

theorem load {a : Word} {n : Width} (hc : s.check a n .load = true) : Memory.load u.mem a n = Memory.load s.mem a n :=
  load_congr fun _ hk => h.low _ (toNat_lt_of_check_load hu hc hk)

theorem memRead (a : Word) (n : Width) : u.memRead a n = s.memRead a n := by
  unfold State.memRead
  rw [h.check]
  split
  case isTrue hc => rw [h.load hu hc]
  case isFalse => rfl

theorem memReadPartial (a : Word) : u.memReadPartial a = s.memReadPartial a := by
  unfold State.memReadPartial
  rw [h.check]
  split
  case isTrue hc => rw [h.load hu hc]
  case isFalse => rfl

theorem readString (fuel : Nat) (a : Word) : u.readString fuel a = s.readString fuel a := by
  induction fuel generalizing a with
  | zero => rfl
  | succ fuel ih => simp only [State.readString, h.memRead hu, ih]

end LowEq

/-- Work done on both states of an answer. -/
theorem AnswerLowEq.map {x y : Except Exc State} {f g : State → State} (hxy : AnswerLowEq x y)
    (hfg : ∀ t v, LowEq t v → LowEq (f t) (g v)) : AnswerLowEq (x.map f) (y.map g) := by
  cases hxy with
  | error e => exact .error e
  | ok htv => exact .ok (hfg _ _ htv)

/-- Work that takes the same value read in both states. -/
theorem answerLowEq_map {α : Type} {x y : Except Exc α} {f g : α → State} (hxy : y = x)
    (hfg : ∀ a, LowEq (f a) (g a)) : AnswerLowEq (x.map f) (y.map g) := by
  subst hxy
  cases y with
  | error e => exact .error e
  | ok a => exact .ok (hfg a)

/-! ### The services keep `LowEq` -/

theorem takeConsoleInt_setMem (s : State) (m : Memory) : State.takeConsoleInt { s with mem := m } =
    (s.takeConsoleInt.1, { s.takeConsoleInt.2 with mem := m }) := by
  unfold State.takeConsoleInt
  dsimp only
  cases s.consoleInts <;> rfl

theorem takeConsoleStr_setMem (s : State) (m : Memory) : State.takeConsoleStr { s with mem := m } =
    (s.takeConsoleStr.1, { s.takeConsoleStr.2 with mem := m }) := by
  unfold State.takeConsoleStr
  dsimp only
  cases s.consoleStrs <;> rfl

namespace LowEq

variable {s u : State} (h : LowEq s u)
include h

theorem takeConsoleInt :
    ∃ answer t v, s.takeConsoleInt = (answer, t) ∧ u.takeConsoleInt = (answer, v) ∧ LowEq t v := by
  obtain ⟨m, rfl⟩ := h.exists_mem
  have hused := h.update (fun y => y.takeConsoleInt.2) fun x m => congrArg Prod.snd (takeConsoleInt_setMem x m)
  rw [takeConsoleInt_setMem s m] at hused
  exact ⟨s.takeConsoleInt.1, s.takeConsoleInt.2, _, rfl, takeConsoleInt_setMem s m, hused⟩

theorem takeConsoleStr :
    ∃ str t v, s.takeConsoleStr = (str, t) ∧ u.takeConsoleStr = (str, v) ∧ LowEq t v := by
  obtain ⟨m, rfl⟩ := h.exists_mem
  have hused := h.update (fun y => y.takeConsoleStr.2) fun x m => congrArg Prod.snd (takeConsoleStr_setMem x m)
  rw [takeConsoleStr_setMem s m] at hused
  exact ⟨s.takeConsoleStr.1, s.takeConsoleStr.2, _, rfl, takeConsoleStr_setMem s m, hused⟩

theorem send (bytes : List Byte) : LowEq (s.send bytes) (u.send bytes) :=
  h.update (State.send · bytes) fun _ _ => rfl

theorem serviceReadInt : LowEq s.serviceReadInt u.serviceReadInt := by
  obtain ⟨answer, t, v, ht, hv, htv⟩ := h.takeConsoleInt
  rw [State.serviceReadInt, State.serviceReadInt, ht, hv]
  cases answer with
  | none => exact htv.takeException _
  | some x => exact htv.retire _ x

theorem serviceReadString : LowEq s.serviceReadString u.serviceReadString := by
  obtain ⟨str, t, v, ht, hv, htv⟩ := h.takeConsoleStr
  have hbad := firstBadStore_congr (s := t) (u := v) (by rw [htv.frame]) (by rw [htv.frame])
  simp only [State.serviceReadString, h.reg, ht, hv, hbad]
  split
  · exact h.schedule .seq
  · split
    · exact htv.takeException _
    · exact (htv.storeBytes _ _).schedule .seq

theorem serviceAllocate : LowEq s.serviceAllocate u.serviceAllocate := by
  have hheap : u.heapTop = s.heapTop := by rw [h.frame]
  rw [State.serviceAllocate, State.serviceAllocate, h.reg, hheap]
  split_ifs
  · exact h.takeException _
  · exact h.takeException _
  · exact ((h.setReg regV0 s.heapTop).update (fun y => { y with heapTop := _ }) fun _ _ => rfl).schedule .seq

variable (hu : s.Unprivileged)
include hu

theorem servicePrintString : LowEq s.servicePrintString u.servicePrintString := by
  rw [State.servicePrintString, State.servicePrintString, h.reg]
  exact h.finish (answerLowEq_map (h.readString hu _ _) h.send)

theorem service (n : Word) : LowEq (s.service n) (u.service n) := by
  have hprintInt : LowEq s.servicePrintInt u.servicePrintInt := by
    rw [State.servicePrintInt, State.servicePrintInt, h.reg]
    exact (h.send _).schedule .seq
  unfold State.service
  split_ifs
  · exact hprintInt
  · exact h.servicePrintString hu
  · exact h.serviceReadInt
  · exact h.serviceReadString
  · exact h.serviceAllocate
  · exact h.schedule _
  · exact h.takeException _

end LowEq

/-! ### Every instruction in user mode keeps `LowEq` -/

/-- `exec` answers states that differ in bytes of the kernel segments only. -/
def ExecLowEq (i : Instr) (s u : State) : Prop := ∃ t v, exec i s = .next t ∧ exec i u = .next v ∧ LowEq t v

/-- In user mode: the instructions that do not touch memory end alike whatever it holds, a store stores the same bytes at the
same addresses, and a load reads below the kernel segments. -/
theorem exec_lowEq (i : Instr) {s u : State} (h : LowEq s u) (hu : s.Unprivileged) : ExecLowEq i s u := by
  obtain ⟨m, rfl⟩ := h.exists_mem
  cases i with
  | add | sub | addi => exact ⟨_, _, rfl, rfl, h.retireChecked _ _⟩
  | movz | movn =>
    refine ⟨_, _, rfl, rfl, ?_⟩
    rw [h.reg, h.reg]
    split
    · exact h.retire _ _
    · exact h.schedule _
  | nop => exact ⟨_, _, rfl, rfl, h.schedule _⟩
  | mult | multu | madd | maddu | msub | msubu | mthi | mtlo => exact ⟨_, _, rfl, rfl, h.retireHiLo _ _⟩
  | div | divu =>
    refine ⟨_, _, rfl, rfl, ?_⟩
    rw [h.reg, h.reg]
    split
    · exact h.retireDiv0
    · exact h.retireHiLo _ _
  | mul rd rs rt => exact ⟨_, _, rfl, rfl, (h.draw.setReg _ _).retireHiLo _ _⟩
  | lb | lh => exact ⟨_, _, rfl, rfl, h.finishReg _ (congrArg (Except.map _) (h.memRead hu _ _))⟩
  | lbu | lhu | lw => exact ⟨_, _, rfl, rfl, h.finishReg _ (h.memRead hu _ _)⟩
  | lwl | lwr => exact ⟨_, _, rfl, rfl, h.finishReg _ (congrArg (Except.map _) (h.memReadPartial hu _))⟩
  | sb | sh | sw => exact ⟨_, _, rfl, rfl, h.finish (h.memWrite _ _ _)⟩
  | swl | swr => exact ⟨_, _, rfl, rfl, h.finish (h.memWritePartial _ _ _)⟩
  | ll rt rs imm =>
    exact ⟨_, _, rfl, rfl, h.finish (answerLowEq_map (h.memRead hu _ _) fun x => h.setRegLink rt x true)⟩
  | sc rt rs imm =>
    refine ⟨_, _, rfl, rfl, h.finish ((h.memWrite _ _ _).map fun t v htv => ?_)⟩
    split
    · exact htv.setRegLink rt 1#32 false
    · exact h.setRegLink rt 0#32 false
  | beq | bne | blez | bgtz | bltz | bgez | j | jr => exact ⟨_, _, rfl, rfl, h.controlTransfer (h.schedule _)⟩
  | bltzal | bgezal | jal | jalr => exact ⟨_, _, rfl, rfl, h.controlTransfer ((h.setReg _ _).schedule _)⟩
  | syscall => exact ⟨_, _, rfl, rfl, h.service hu _⟩
  | brk => exact ⟨_, _, rfl, rfl, h.takeException _⟩
  | teq | tne | tge | tgeu | tlt | tltu | teqi | tnei | tgei | tgeiu | tlti | tltiu =>
    exact ⟨_, _, rfl, rfl, h.trapIf _ _⟩
  | eret => exact ⟨_, _, rfl, rfl, h.controlTransfer h.returnFromException⟩
  | mfc0 rt rd =>
    refine ⟨_, _, rfl, rfl, ?_⟩
    have hcp0 : State.cp0 { s with mem := m } rd = s.cp0 rd := rfl
    rw [hcp0]
    cases s.cp0 rd with
    | none => exact h.takeException _
    | some x => exact h.retire _ x
  | mtc0 rt rd =>
    obtain ⟨hs, hv⟩ | ⟨t, v, hs, hv, htv⟩ := h.setCp0 rd (s.reg rt)
    · exact ⟨_, _, by rw [exec, execMtc0, hs], by rw [exec, execMtc0, h.reg, hv], h.takeException _⟩
    · exact ⟨_, _, by rw [exec, execMtc0, hs], by rw [exec, execMtc0, h.reg, hv], htv.schedule .seq⟩
  | _ => exact ⟨_, _, rfl, rfl, h.retire _ _⟩

/-- Settles O52: neither run writes a byte of a kernel segment, and by `exec_lowEq` the second ends as the first. -/
theorem userModeIsolation : Obligations.UserModeIsolation := by
  intro i s t m hm hm' huser henforced hlow hx
  have hu : s.Unprivileged := ⟨huser, henforced⟩
  have hu' : State.Unprivileged { s with mem := m } := ⟨huser, henforced⟩
  obtain ⟨t', v, hx', hxv, htv⟩ := exec_lowEq i (u := { s with mem := m }) ⟨rfl, hm, hm', hlow⟩ hu
  cases hx.symm.trans hx'
  exact ⟨fun a ha => exec_keeps_kernel_byte hm hu hx ha, v.mem, by rw [hxv, ← htv.frame], htv.low,
    fun a ha => exec_keeps_kernel_byte hm' hu' hxv ha⟩

end Sys2Proof.Machine
end

section
/-! Run control (70_reset_and_hazards.md). Each column of R280 is one equation for `State.command`, each way a step begins one
lemma about `step`, and the three claims about memory after `load` are read off `Image.memory`; the obligations are assembled
from these. -/

namespace Sys2Proof.Machine

/-! ### The commands, column by column (70_reset_and_hazards.md R280) -/

section
variable (s : State)

theorem command_load (img : Image) : s.command (.load img) =
    if (s.runState = .idle ∨ s.runState = .loaded) ∧ img.valid = true then some (s.install img) else none := by
  cases h : s.runState <;> simp [State.command, h]

theorem command_reset : s.command .reset = if s.runState = .idle then none else s.image.map s.install := by
  cases h : s.runState <;> simp [State.command, h]

theorem command_run : s.command .run =
    if s.runState = .loaded then some { s with runState := .running }
    else if s.runState = .paused then some { s with runState := .running, skipBreak := true } else none := by
  cases h : s.runState <;> simp [State.command, h]

theorem command_step : s.command .step =
    if s.runState = .loaded ∨ s.runState = .paused then some { s with skipBreak := false } else none := by
  cases h : s.runState <;> simp [State.command, h]

theorem command_pause : s.command .pause =
    if s.runState = .running then some { s with runState := .paused } else none := by
  cases h : s.runState <;> simp [State.command, h]

theorem command_stop : s.command .stop = s.command .pause := rfl

end

/-! ### The breakpoint commands (70_reset_and_hazards.md R288) -/

theorem mem_insertAddr_iff {a b : Word} {l : List Word} : b ∈ insertAddr a l ↔ b = a ∨ b ∈ l := by
  refine ⟨eq_or_mem_of_mem_insertAddr, ?_⟩
  induction l with
  | nil => simp [insertAddr]
  | cons c rest ih =>
    unfold insertAddr
    split_ifs with hlt heq
    · exact List.mem_cons.2
    · rintro (rfl | h)
      · exact heq ▸ List.mem_cons_self
      · exact h
    · rw [List.mem_cons, List.mem_cons]
      tauto

theorem mem_removeAddr_iff {a b : Word} {l : List Word} : b ∈ removeAddr a l ↔ b ≠ a ∧ b ∈ l := by
  simp [removeAddr, and_comm]

/-- Settles O53: the columns of `pause`, `stop`, `run` and `step`, and membership in the two lists. -/
theorem runPauseAndBreakpointCommands : Obligations.RunPauseAndBreakpointCommands := by
  intro s a
  have hpause : (s.runState = .running → s.command .pause = some { s with runState := .paused }) ∧
      (s.runState ≠ .running → s.command .pause = none) := by
    rw [command_pause]
    exact ⟨fun h => if_pos h, fun h => if_neg h⟩
  refine ⟨?pauseStop, ⟨_, rfl, fun b => mem_insertAddr_iff⟩, ⟨_, rfl, fun b => mem_removeAddr_iff⟩, ?loaded, ?paused,
    ?refused⟩
  case pauseStop =>
    intro c hc
    rcases List.mem_pair.1 hc with rfl | rfl
    · exact hpause
    · exact command_stop s ▸ hpause
  case loaded => exact fun h => by rw [command_run, if_pos h]
  case paused => exact fun h => by simp [command_run, h]
  case refused =>
    rintro ⟨hl, hp⟩
    rw [command_run, if_neg hl, if_neg hp, command_step, if_neg (not_or.2 ⟨hl, hp⟩)]
    exact ⟨rfl, rfl⟩

/-! ### What `load` and `reset` install (70_reset_and_hazards.md R281, R282) -/

/-- Each data byte of an image is at its address, since no address is listed twice. -/
theorem byteAt_installData {m : Memory} (hm : Memory.wf m = true) {l : List (Word × Byte)}
    (hnd : (l.map (fun p => p.1)).Nodup) {p : Word × Byte} (hp : p ∈ l) :
    Memory.byteAt (Memory.installData m l) p.1 = p.2 := by
  induction l generalizing m with
  | nil => cases hp
  | cons q rest ih =>
    obtain ⟨hnotin, hnd⟩ := List.nodup_cons.1 hnd
    have hm' := Memory.wf_setByteAt hm q.1 q.2
    rw [Memory.installData]
    rcases List.mem_cons.1 hp with rfl | hp
    · rw [byteAt_installData_of_ne hm', Memory.byteAt_setByteAt hm, if_pos rfl]
      exact fun r hr h => hnotin (List.mem_map.2 ⟨r, hr, h.symm⟩)
    · exact ih hm' hnd hp

/-- The memory of a valid image holds its text words, its data bytes, and zero elsewhere (20_memory.md R51). -/
theorem holdsImage_memory {img : Image} (hok : ImageOk img) : HoldsImage img.memory img := by
  have hv : img.valid = true := (image_valid_iff img).2 hok
  obtain ⟨-, -, -, hnd, -⟩ := hok
  have hwf : Memory.wf (Memory.installText [] img.text) = true := Memory.wf_installText rfl _
  refine ⟨fun p hp k hk => byteAt_memory_of_mem_text hv hp hk, fun p hp => byteAt_installData hwf hnd hp,
    fun a htext hdata => ?_⟩
  rw [Image.memory, byteAt_installData_of_ne hwf hdata, byteAt_installText_of_ne rfl htext]
  rfl

/-- The register file at reset (10_state.md R42). -/
theorem reg_reset (r : Reg) :
    State.reset.reg r = if r = 28#5 then 0x10008000#32 else if r = 29#5 then 0x7FFFEFFC#32 else 0#32 := by
  revert r
  decide

theorem reg_install (s : State) (img : Image) (r : Reg) : (s.install img).reg r = State.reset.reg r :=
  reg_congr rfl r

theorem installed_install (s : State) {img : Image} (hok : ImageOk img) : Installed s (s.install img) img := by
  refine ⟨fun r => (reg_install s img r).trans (reg_reset r), ?_⟩
  simp only [State.install, true_and]
  exact holdsImage_memory hok

theorem command_load_of_ok {s : State} {img : Image} (hr : s.runState = .idle ∨ s.runState = .loaded)
    (hok : ImageOk img) : s.command (.load img) = some (s.install img) := by
  rw [command_load, if_pos ⟨hr, (image_valid_iff img).2 hok⟩]

theorem command_load_of_not {s : State} {img : Image}
    (h : ¬((s.runState = .idle ∨ s.runState = .loaded) ∧ ImageOk img)) : s.command (.load img) = none := by
  rw [command_load, if_neg (by rwa [image_valid_iff])]

theorem command_reset_of_image {s : State} {img : Image} (hr : s.runState ≠ .idle) (himg : s.image = some img) :
    s.command .reset = some (s.install img) := by
  rw [command_reset, if_neg hr, himg, Option.map_some]

/-- Settles O54: what the two commands answer, and `installed_install` for what they leave. -/
theorem loadAndResetInstallTheImage : Obligations.LoadAndResetInstallTheImage :=
  fun s _ =>
    ⟨fun hr hok => ⟨_, command_load_of_ok hr hok, installed_install s hok⟩,
     command_load_of_not,
     fun hr himg hok => ⟨_, command_reset_of_image hr himg, installed_install s hok⟩,
     fun hr => (command_reset s).trans (if_pos hr)⟩

/-! ### What a step begins with (70_reset_and_hazards.md R280, R284) -/

section
variable {s : State} {c : Command} {rest : List Command} (hc : s.commands = c :: rest)
include hc

theorem step_of_refused (h : State.command { s with commands := rest } c = none) :
    step s = .next { s with commands := rest } := by
  simp only [step, State.cycle, hc, h]

theorem step_of_command {t : State} (hne : c ≠ .step) (h : State.command { s with commands := rest } c = some t) :
    step s = .next t := by
  simp only [step, State.cycle, hc, h]
  cases c with
  | step => exact absurd rfl hne
  | load | reset | run | pause | stop | setBreakpoint | clearBreakpoint => rfl

end

/-- `step()` is one instruction of the state it began in, and then the end of the step (70_reset_and_hazards.md R283). -/
theorem step_of_stepCommand {s : State} {rest : List Command} (hc : s.commands = .step :: rest)
    (hr : s.runState = .loaded ∨ s.runState = .paused) :
    step s = mapNext State.endStep (Begun s rest).instrStep := by
  have hcmd : State.command { s with commands := rest } .step = some (Begun s rest) := by
    rw [command_step, if_pos hr, Begun]
  simp only [step, State.cycle, hc, hcmd]

/-- Where nothing waits and the run loop does not run, a step is a fault (log 7). -/
theorem step_of_terminal {s : State} (hc : s.commands = []) (hr : s.runState = .halted ∨ s.runState = .faulted) :
    step s = .fault (if s.runState = .halted then .halted else .faulted) := by
  rcases hr with h | h <;> simp [step, State.cycle, hc, h]

theorem step_of_breakpoint {s : State} (hc : s.commands = []) (hr : s.runState = .running)
    (hpc : s.pc ∈ s.breakpoints) (hskip : s.skipBreak = false) : step s = .next { s with runState := .paused } := by
  have hbreak : s.breakHere = true := by
    simp [State.breakHere, hpc, hskip]
  simp only [step, State.cycle, hc, hr, hbreak, if_true]

/-- Settles O55: a refused command by `step_of_refused`, an accepted one by `step_of_command`. -/
theorem stepTakesTheOldestCommand : Obligations.StepTakesTheOldestCommand :=
  fun _ _ _ hc => ⟨step_of_refused hc, fun _ hne h => step_of_command hc hne h⟩

/-- Settles O57: `step_of_breakpoint` where the breakpoint fires, `step_of_running` elsewhere. -/
theorem runLoopIteration : Obligations.RunLoopIteration :=
  fun _ hc hr => ⟨step_of_breakpoint hc hr, fun h => step_of_running hc hr h.neg_resolve_left⟩

/-! ### `step()` (70_reset_and_hazards.md R283) -/

/-- An instruction step always answers a next state. -/
theorem exists_instrStep_eq_next (s : State) : ∃ t, s.instrStep = .next t := by
  obtain ⟨e, h⟩ | h | ⟨i, h⟩ := instrStep_cases s
  · exact ⟨_, h⟩
  · exact ⟨_, h⟩
  · exact h ▸ exists_exec_eq_next i s

theorem endStep_eq_ite (s : State) :
    s.endStep = if s.runState = .halted ∨ s.runState = .faulted then s else { s with runState := .paused } := by
  cases h : s.runState <;> simp [State.endStep, h]

/-- Settles O56: the instruction answers some `t`, the step is `t.endStep`, and that is by cases on whether `t` ended. -/
theorem singleStepCommand : Obligations.SingleStepCommand := by
  intro s rest hc hr
  obtain ⟨t, ht⟩ := exists_instrStep_eq_next (Begun s rest)
  have hstep : step s = .next t.endStep := by rw [step_of_stepCommand hc hr, ht, mapNext]
  rw [hstep, endStep_eq_ite]
  exact ⟨t, ht, fun h => by rw [if_pos h], fun h => by rw [if_neg (not_or.2 h)]⟩

/-! ### Terminal states and power-on (70_reset_and_hazards.md R287, R291) -/

/-- Settles O58: neither run state is one in which R280 accepts anything but `reset` and the breakpoint commands. -/
theorem terminalStates : Obligations.TerminalStates := by
  intro s hr
  have hnot : s.runState ≠ .idle ∧ s.runState ≠ .loaded ∧ s.runState ≠ .running ∧ s.runState ≠ .paused := by
    rcases hr with h | h <;> simp [h]
  obtain ⟨hidle, hloaded, hrunning, hpaused⟩ := hnot
  have hpause : s.command .pause = none := by rw [command_pause, if_neg hrunning]
  refine ⟨fun hc => step_of_terminal hc hr, fun img => command_load_of_not fun h => h.1.elim hidle hloaded,
    ?run, ?step, hpause, hpause, fun a => ⟨rfl, rfl⟩,
    fun img himg => ⟨_, command_reset_of_image hidle himg, rfl⟩⟩
  case run => rw [command_run, if_neg hloaded, if_neg hpaused]
  case step => rw [command_step, if_neg (not_or.2 ⟨hloaded, hpaused⟩)]

/-- Settles O60: `State.reset` is `Idle`, where R280 accepts `load` and the breakpoint commands only. -/
theorem powerOn : Obligations.PowerOn := by
  refine ⟨rfl, rfl, rfl, fun c hload hbreak => ?_, fun img hok => ⟨_, command_load_of_ok (.inl rfl) hok, rfl⟩⟩
  cases c with
  | load img => exact absurd rfl (hload img)
  | setBreakpoint a => exact absurd rfl (hbreak a).1
  | clearBreakpoint a => exact absurd rfl (hbreak a).2
  | reset | run | step | pause | stop => rfl

/-- Settles O48: memory and the breakpoint set are empty, nothing is pending, and no image is retained. -/
theorem invAtReset : Obligations.InvAtReset :=
  have hrun : State.reset.RunInv := ⟨by decide, by decide, by decide, nofun, nofun, fun _ => rfl⟩
  ⟨State.reset_mem_wf, rfl, fun _ _ => rfl, hrun, nofun, by decide⟩

/-! ### The queries (70_reset_and_hazards.md R290) -/

section
variable {s : State}

theorem inspectable_iff_mem : s.inspectable = true ↔ s.runState ∈ [RunState.loaded, .paused, .halted, .faulted] := by
  cases h : s.runState <;> simp [State.inspectable, h]

theorem inspectable_of_idle_or_running (h : s.runState = .idle ∨ s.runState = .running) : s.inspectable = false := by
  rcases h with h | h <;> simp [State.inspectable, h]

theorem readRegister_of_inspectable (h : s.inspectable = true) (i : Nat) : s.readRegister i = s.indexedRegister i :=
  if_pos h

theorem indexedRegister_toNat (r : Reg) : s.indexedRegister r.toNat = some (s.reg r) := by
  rw [State.indexedRegister, if_pos r.isLt, BitVec.ofNat_toNat, BitVec.setWidth_eq]

theorem indexedRegister_of_gt {i : Nat} (h : 38 < i) : s.indexedRegister i = none := by
  have hreg : ¬i < 32 := by omega
  have hother : ∀ k ≤ 38, i ≠ k := by omega
  simp [State.indexedRegister, hreg, hother]

theorem getFaultInfo_eq_ite : s.getFaultInfo = if s.runState = .faulted then s.faultInfo else none := by
  cases h : s.runState <;> simp [State.getFaultInfo, h]

/-- Mapped addresses are one range (20_memory.md R52). -/
theorem segMapped_iff (a : Word) :
    segMapped (segmentOf a) = true ↔ 0x00400000 ≤ a.toNat ∧ a.toNat ≤ 0xFFFEFFFF := by
  unfold segmentOf
  split_ifs <;> simp [segMapped] <;> omega

theorem all_accessAddrs_iff {p : Word → Bool} {a : Word} {n : Width} :
    (accessAddrs a n).all p = true ↔ ∀ k < widthBytes n, p (a + BitVec.ofNat 32 k) = true := by
  simp [accessAddrs]

theorem readMemory_of_mapped {a : Word} {n : Width} (h : s.inspectable = true)
    (hmap : ∀ k < widthBytes n, segMapped (segmentOf (a + BitVec.ofNat 32 k)) = true) :
    s.readMemory a n = some (Memory.load s.mem a n) :=
  if_pos (Bool.and_eq_true_iff.2 ⟨h, all_accessAddrs_iff.2 hmap⟩)

theorem readMemory_of_unmapped {a : Word} {n : Width} {k : Nat} (hk : k < widthBytes n)
    (hmap : ¬segMapped (segmentOf (a + BitVec.ofNat 32 k)) = true) : s.readMemory a n = none :=
  if_neg fun h => hmap (all_accessAddrs_iff.1 (Bool.and_eq_true_iff.1 h).2 k hk)

end

/-- The bytes of a value of any width are those of memory, lowest address first (20_memory.md R54). -/
theorem byteOf_load (m : Memory) (a : Word) (n : Width) {k : Nat} (hk : k < widthBytes n) :
    byteOf (Memory.load m a n) k = Memory.byteAt m (a + BitVec.ofNat 32 k) := by
  cases n with
  | byte =>
    obtain rfl : k = 0 := Nat.lt_one_iff.1 hk
    rw [BitVec.add_zero]
    exact extractLsb'_setWidth_self _ (by decide)
  | half =>
    rw [byteOf, Memory.load, BitVec.extractLsb'_setWidth_of_le (by simp only [widthBytes] at hk; omega)]
    simp only [widthBytes] at hk
    interval_cases k
    · rw [BitVec.extractLsb'_append_eq_of_add_le (by decide), BitVec.add_zero]
      exact BitVec.extractLsb'_eq_self
    · rw [BitVec.extractLsb'_append_eq_of_le (by decide)]
      exact BitVec.extractLsb'_eq_self
  | word => exact byteOf_load_word m a hk

/-- A value of a width has no bits beyond it (20_memory.md R57). -/
theorem toNat_load_lt (m : Memory) (a : Word) (n : Width) : (Memory.load m a n).toNat < 2 ^ (8 * widthBytes n) := by
  cases n with
  | byte => exact (BitVec.toNat_setWidth_of_le (by decide)).trans_lt (BitVec.isLt _)
  | half => exact (BitVec.toNat_setWidth_of_le (by decide)).trans_lt (BitVec.isLt _)
  | word => exact BitVec.isLt _

/-- Settles O59: where the state is inspectable, the registers by their index and memory by the mapped range. -/
theorem queries : Obligations.Queries := by
  intro s
  refine ⟨rfl, ?closed, fun h => getFaultInfo_eq_ite.trans (if_pos h),
    fun h => getFaultInfo_eq_ite.trans (if_neg h), ?inspectable⟩
  case closed =>
    intro hr
    have hclosed := inspectable_of_idle_or_running hr
    have hne : s.runState ≠ .faulted := by
      rcases hr with h | h <;> simp [h]
    refine ⟨fun i => ?_, fun a n => ?_, getFaultInfo_eq_ite.trans (if_neg hne)⟩
    · simp [State.readRegister, hclosed]
    · simp [State.readMemory, hclosed]
  case inspectable =>
    intro hr
    have hopen := inspectable_iff_mem.2 hr
    simp only [← segMapped_iff, readRegister_of_inspectable hopen]
    refine ⟨indexedRegister_toNat, rfl, rfl, rfl, rfl, rfl, rfl, rfl, fun i => indexedRegister_of_gt, fun a n hmap => ?_,
      fun a n ⟨k, hk, hmap⟩ => readMemory_of_unmapped hk hmap⟩
    exact ⟨_, readMemory_of_mapped hopen hmap, toNat_load_lt s.mem a n, fun k hk => byteOf_load s.mem a n hk⟩

end Sys2Proof.Machine
end
